-- ==== Sys2Proof/Word.lean ====
section
/-! DEFINITION. The word types of the fabric and the sparse table every keyed collection of the model uses. -/

namespace Sys2Proof

/-- One byte. -/
abbrev Byte := BitVec 8

/-- The payload of one flit (R33): 512 bits. -/
abbrev Payload := BitVec 512

/-- One flit as an on-die link carries it (R33): 576 bits. -/
abbrev WireFlit := BitVec 576

/-- A keyed collection as plain data: keys strictly rising. -/
abbrev Tab (α : Type) := List (Nat × α)

namespace Tab

variable {α : Type}

/-- The value a key holds, when it is listed. -/
def get? : Tab α → Nat → Option α
  | [], _ => none
  | (k', v) :: rest, k => if k' = k then some v else get? rest k

/-- The value a key holds, or `d` when it is not listed. -/
def getD (t : Tab α) (k : Nat) (d : α) : α := (get? t k).getD d

/-- List `v` under `k`, keeping the keys in rising order. -/
def put : Tab α → Nat → α → Tab α
  | [], k, v => [(k, v)]
  | (k', v') :: rest, k, v =>
    if k < k' then (k, v) :: (k', v') :: rest
    else if k' = k then (k, v) :: rest
    else (k', v') :: put rest k v

/-- Take `k` off the list. -/
def del : Tab α → Nat → Tab α
  | [], _ => []
  | (k', v') :: rest, k => if k' = k then rest else (k', v') :: del rest k

/-- Change what `k` holds; a key that is not listed stays unlisted. -/
def upd : Tab α → Nat → (α → α) → Tab α
  | [], _, _ => []
  | (k', v') :: rest, k, f => if k' = k then (k', f v') :: rest else (k', v') :: upd rest k f

/-- Whether a key is listed. -/
def has (t : Tab α) (k : Nat) : Bool := (get? t k).isSome

/-- The lowest number from `n` upward, among `fuel` candidates, that is not listed. -/
def lowestFree (t : Tab α) (n : Nat) : Nat → Option Nat
  | 0 => none
  | fuel + 1 => if has t n then lowestFree t (n + 1) fuel else some n

end Tab

end Sys2Proof
end

