-- ==== Sys2Proof/Syntax.lean ====
section
/-! DEFINITION. The commands of the block (one constructor per row of the opcode table) and the operands they carry:
packets, frames, sideband messages and management requests. -/

namespace Sys2Proof

/-- The header flit payload (R43), field by field in the manual's order. -/
structure Hdr where
  dest : BitVec 16
  src : BitVec 16
  vn : BitVec 3
  cls : BitVec 2
  mcast : Bool
  laPort : BitVec 3
  dateline : Bool
  cmd : BitVec 8
  tag : BitVec 12
  len : BitVec 9
  vport : BitVec 10
  addr : BitVec 56
  seq : BitVec 16
  injTime : BitVec 32
  rsvId : BitVec 16
  be : BitVec 64
  csf : BitVec 215
  crc : BitVec 32
deriving DecidableEq, Repr

/-- A whole packet: its header, its data flits in FIDX order, whether the header flit carries POISON = 1, and the FIDX of
the data flits that do (R34, R40, R42). -/
structure Pkt where
  hdr : Hdr
  data : List Payload
  badHdr : Bool
  badData : List Nat
deriving DecidableEq, Repr

/-- The contents of one link cycle beside its CHECK bits (R33, R34). -/
structure Flit where
  payload : Payload
  vc : Nat
  ftype : Nat
  poison : Bool
  fvalid : Bool
  crvalid : Bool
  crvc : Nat
  lseq : Nat
  fidx : Nat
deriving DecidableEq, Repr

/-- A flit on the ingress bus (R238): hy_ep_i_ch, fidx, data, par and cpar, with hy_ep_i_vld = 1. -/
structure BusFlit where
  ch : BitVec 3
  fidx : BitVec 3
  data : Payload
  par : BitVec 8
  cpar : Bool
deriving DecidableEq, Repr

/-- What an NI reads in a presentation on ingress (R240): a packet on a channel, and what went wrong with it on the bus. -/
structure Ingress where
  ch : Nat
  hdr : Hdr
  data : List Payload
  /-- A data flit failed its data parity (R245). -/
  dataParity : Bool
  /-- Any other parity failure (R245). -/
  otherParity : Bool
  /-- The data flits came out of order, or the header was not last (R240). -/
  badOrder : Bool
deriving DecidableEq, Repr

/-- The time position of an instance (R153, R397). -/
structure TimeAdv where
  role : Bool
  conflict : Bool
  via : Bool
  master : BitVec 16
  steps : BitVec 8
deriving DecidableEq, Repr

/-- A PARAM message (R388). -/
structure ParamMsg where
  node : BitVec 16
  package : BitVec 8
  rank : BitVec 8
  version : BitVec 24
  longReach : Bool
  xingClass0 : Bool
  adv : TimeAdv
deriving DecidableEq, Repr

/-- What lane training found (R387, R393, R394, R396): the data lanes (or, on UCIe, what failed) in error in each receive group
(or module), the channels the far direction trained, the measured latency and raw delay in fc. -/
structure LaneResult where
  errors : List (List Nat)
  farChannels : Nat
  latency : Nat
  rawDelay : Nat
deriving DecidableEq, Repr

/-- One Ndesil frame with its trailer (R372, R375). -/
structure Frame where
  flits : List WireFlit
  ackLseq : BitVec 8
  ackValid : Bool
  nak : Bool
  tsMark : BitVec 2
  chan : BitVec 3
  /-- The channel on which the frame arrived or leaves. -/
  on : Nat
  replay : Bool
  frameSlot : BitVec 16
  vcCredits : BitVec 48
  poolCredits : BitVec 4
  poolMap : BitVec 8
  crc : BitVec 16
  /-- Long-reach only: the 64-bit SF_HDR at the head of the CRC input (R397). -/
  sfHdr : BitVec 64
  /-- Long-reach only: hy_lr_rx_err_b (R395). -/
  rxErr : Bool
deriving DecidableEq, Repr

/-- What a SerDes bundle carries in one fc (R395): hy_lr_rx_data or hy_lr_tx_data, its sof, and hy_lr_rx_err. -/
structure LrBeat where
  data : BitVec 604
  sof : Bool
  err : Bool
deriving DecidableEq, Repr

/-- A received frame: of a channel, behind the logical lanes of a short-reach PHY, or the eighths of a long-reach bundle
(R373, R395). -/
inductive RxFrame where
  | channel (f : Frame)
  | bundle (b : Nat) (beats : List LrBeat)
deriving DecidableEq, Repr

/-- The body of an MG_REQ message (R472). -/
structure MgReq where
  iana : BitVec 32
  op : BitVec 8
  target : BitVec 16
  index : BitVec 16
  sub : BitVec 8
  size : Nat
  data : List Byte
deriving DecidableEq, Repr

/-- A flow (R74): DEST is the group number of a multicast flow. -/
structure FlowKey where
  src : BitVec 16
  dest : BitVec 16
  mcast : Bool
  vn : BitVec 3
  cls : BitVec 2
deriving DecidableEq, Repr

/-- The receiving end of an on-die link: an input port of a router, or the ejection input of an NI. -/
inductive LinkEnd where
  | rtr (r p : Nat)
  | ni (l : Nat)
deriving DecidableEq, Repr

/-- An error met in a stored table entry (R446): its table code, its dictionary key and the unit that read it. -/
structure TabErr where
  uncorrectable : Bool
  code : Nat
  /-- Index * 256 + subindex of the entry. -/
  key : Nat
  /-- The log of the unit: index of its log objects (R457). -/
  log : Nat
deriving DecidableEq, Repr

/-- A sideband message that came (R397): at which port, and the CRC16 that came with it. -/
structure SbRx where
  p : Nat
  crc : BitVec 16
deriving DecidableEq, Repr

/-- A TRAIN that came (R386, R397): its port, step, lane map and CRC16. -/
structure TrainRx where
  p : Nat
  step : Nat
  map : List Byte
  crc : BitVec 16
deriving DecidableEq, Repr

/-- A sideband message that was sent: its port, and its place among those of the last 100 µs (R397). -/
structure SbSent where
  p : Nat
  k : Nat
deriving DecidableEq, Repr

/-- One command of the block: one constructor per row of spec/opcode_table.json. -/
inductive Instr where
  /-- POR_ASSERT (R490): hy_por_n falls and the instance is reset, losing NI state and dropping hy_fab_ready. -/
  | porAssert
  /-- POR_RELEASE (R485): hy_por_n rises and the instance begins start-up at step 1. -/
  | porRelease
  /-- STARTUP_STEP (R485): Start-up moves on from one step to the next once the step's end condition holds. -/
  | startupStep
  /-- IMAGE_WAIT (R485): IMAGE_WAIT passes with no image chunk, so step 3 ends with IMAGE_STATUS set to none. -/
  | imageWait
  /-- IMAGE_CHUNK (R472, R484): An MCTP IMAGE_CHUNK carrying persistent-image bytes at an offset is received: the message's bytes,
  cut before OFFSET and before SIZE. -/
  | imageChunk (head offset data : List Byte)
  /-- IMAGE_END (R484): IMAGE_END is received; the image is checked against CRC, FORMAT and GEN_DIGEST and then applied record by record.
  The message's bytes are cut before TOTAL. -/
  | imageEnd (head total : List Byte)
  /-- IMAGE_ACK (R481): The host answers a stored image, and STORE completes as DONE or STORE_FAILED. The message's bytes are cut
  before RESULT. -/
  | imageAck (head result : List Byte)
  /-- MG_REQ (R472, R473): An out-of-band MCTP management request is received; it is answered locally or forwarded in-band. -/
  | mgReq (msg : List Byte)
  /-- GET_VENDOR_DEFINED_MESSAGE_SUPPORT (R528): The MCTP control command is answered with the IANA vendor ID. -/
  | getVendorDefinedMessageSupport
  /-- MG_FORWARD_TIMEOUT (R473): A forwarded MG_REQ gets no answer within two control ticks and is answered BUSY. -/
  | mgForwardTimeout (id : Nat)
  /-- MG_READ (R465): An in-band management read of one object is checked and answered with RSP_MGMT. -/
  | mgRead (l : Nat) (p : Pkt)
  /-- MG_WRITE (R465): An in-band management write of one object is checked, applied or refused, and answered. -/
  | mgWrite (l : Nat) (p : Pkt)
  /-- MG_INFO (R465): An in-band request returns the 16-byte descriptor of an object. -/
  | mgInfo (l : Nat) (p : Pkt)
  /-- MG_VP_SQUASH (R465, R470): A Shuttle squashes the engine contexts owned by a virtual port and answers with the count. -/
  | mgVpSquash (l : Nat) (p : Pkt)
  /-- MG_RESERVED_CMD (R465): A management request with CMD 0xA4–0xAF is answered MG_UNKNOWN and its data is discarded. -/
  | mgReservedCmd (l : Nat) (p : Pkt)
  /-- BROADCAST_ANSWER (R469): A broadcast is answered once every copy has been answered or two control ticks have passed. -/
  | broadcastAnswer (id : Nat)
  /-- REGISTER_WRITE (R11, R12): A write to a dictionary object that has no behaviour of its own is accepted or refused as its access code gives. -/
  | registerWrite (index sub size value : Nat)
  /-- STOP (R475): The STOP command sends a named function into STOPPING, or stops the instance group by group. -/
  | stop (funcId : Nat)
  /-- START (R475, R478): The START command runs the checks of a STOPPED function and then starts it, or returns a STOPPING function to RUNNING. -/
  | start (funcId : Nat)
  /-- STORE (R481): The STORE command snapshots the persistent objects and sends the image to the host over MCTP. -/
  | store (v : Nat)
  /-- STORE_TIMEOUT (R481): STORE_TIMEOUT passes with no IMAGE_ACK, and STORE completes with STORE_TIMEOUT. -/
  | storeTimeout
  /-- RESTORE_DEFAULTS (R483): The RW and RWS objects of a STOPPED function are written back to their defaults. -/
  | restoreDefaults (funcId : Nat)
  /-- ROUTER_STOPPED (R139): A STOPPING router has drained its VCs and queues and enters STOPPED. -/
  | routerStopped (r : Nat)
  /-- DRAIN_TIMEOUT (R140): A router that has been STOPPING for DRAIN_TIMEOUT reports DRAIN_TIMEOUT and stays STOPPING. -/
  | drainTimeout (r : Nat)
  /-- ROUTER_RUNNING (R141, R115): A STARTING router returns its last withheld credit and enters RUNNING. -/
  | routerRunning (r : Nat) (selfTest : Bool)
  /-- NI_STOPPED (R267): A STOPPING NI has emptied its buffers, stores and tables and enters STOPPED. -/
  | niStopped (l : Nat)
  /-- NI_DRAIN_TIMEOUT (R267): An NI that has been STOPPING for 2 × NP_TIMEOUT reports DRAIN_TIMEOUT. -/
  | niDrainTimeout (l : Nat)
  /-- PORT_STOPPED (R391): A stopping Ndesil port has every held flit acknowledged and reports STOPPED. -/
  | portStopped (p : Nat)
  /-- ENG_DRAIN_TIMEOUT (R345): ENG_DRAIN_TIMEOUT passes; the remaining contexts are killed and the engine enters STOPPED. -/
  | engDrainTimeout (i : Nat)
  /-- CYCLIC_MODE_CHANGE (R114): A router switches between cyclic and iterative allocation once no connection is open. -/
  | cyclicModeChange (r : Nat)
  /-- GUARD_SWAP (R360): The GUARD_SWAP command exchanges the active and shadow region sets of one guard or of every guard. -/
  | guardSwap (v : Nat)
  /-- GUARD_SWAP_EFFECT (R361, R362): A swap takes effect in the guard between two fc and copies locked entries into both sets. -/
  | guardSwapEffect (l : Nat)
  /-- ARM (R190): PRICKING_COMMIT ARM validates the shadow banks and, on success, computes the activation slot. -/
  | arm
  /-- DISARM (R196): PRICKING_COMMIT DISARM withdraws an armed shadow bank. -/
  | disarm
  /-- PRICKING_ACTIVATION (R194): At slot A every router and NI switches to the new bank, and the Shuttle copies it back to the shadow bank. -/
  | prickingActivation
  /-- HOOP (R500): A write of T to HOOP arms a hoop and broadcasts a HOOP packet. -/
  | hoop (t : Nat)
  /-- HOOP_RECEIVE (R500): A Shuttle that receives a HOOP packet arms with its time and ID, unless the packet is for another package. -/
  | hoopReceive (l : Nat) (p : Pkt)
  /-- HOOP_SNAPSHOT (R501): At fabric time T, every counter is copied into its shadow. -/
  | hoopSnapshot
  /-- WAKE_SEND (R426): A write to WAKE_SEND makes the Shuttle send a WAKE packet. -/
  | wakeSend (v : Nat)
  /-- WAKE (R426): A received WAKE wakes the named domains without hint delay and pins them for HOLD µs. -/
  | wake (l : Nat) (p : Pkt)
  /-- WAKE_HOLD_EXPIRY (R426): The HOLD period of a WAKE ends and the pin in P0 is released. -/
  | wakeHoldExpiry (d : Nat)
  /-- RETRAIN (R525): LINK_CMD RETRAIN moves the link to RETRAIN, or to DETECT from FAILED. -/
  | retrain (p : Nat)
  /-- DISABLE (R524, R525): LINK_CMD DISABLE sends LINK_DOWN, discards the port's contents and takes the link DOWN. -/
  | disable (p : Nat)
  /-- ENABLE (R525): LINK_CMD ENABLE moves a DOWN or FAILED link to DETECT. -/
  | enable (p : Nat)
  /-- FREEZE (R288, R283): VP_OP FREEZE moves a RUNNING virtual port to FREEZING. -/
  | freeze (l v : Nat)
  /-- THAW (R283): VP_OP THAW returns a FREEZING or FROZEN virtual port to RUNNING. -/
  | thaw (l v : Nat)
  /-- SAVE (R291): VP_OP SAVE writes a FROZEN virtual port's image into VP_IMAGE. -/
  | save (l v : Nat)
  /-- RESTORE (R291): VP_OP RESTORE checks VP_IMAGE and loads it into a DISABLED virtual port, leaving the port FROZEN. -/
  | restore (l v : Nat)
  /-- RESET (R292): VP_OP RESET squashes or drains all of a virtual port's work and starts the squash round. -/
  | reset (l v : Nat)
  /-- VP_FROZEN (R289): A FREEZING virtual port is drained and becomes FROZEN. -/
  | vpFrozen (l : Nat)
  /-- VP_FREEZE_TIMEOUT (R289): FREEZE has not drained within 2 × NP_TIMEOUT and ends with DRAIN_TIMEOUT. -/
  | vpFreezeTimeout (l : Nat)
  /-- SQUASH_ROUND_TIMEOUT (R293): A node that has not answered the squash round after two control ticks is recorded as unreached. -/
  | squashRoundTimeout (l : Nat)
  /-- VP_RESET_DONE (R294): RESETTING ends and the virtual port becomes DISABLED. -/
  | vpResetDone (l : Nat)
  /-- VP_ENABLE (R283): A VP_CTRL write that sets ENABLE to 1 moves a DISABLED virtual port to RUNNING. -/
  | vpEnable (l v : Nat)
  /-- VP_DISABLE (R283): A VP_CTRL write that clears ENABLE moves a FROZEN virtual port to DISABLED. -/
  | vpDisable (l v : Nat)
  /-- GROUP_ENABLE (R131): A GROUP_CTRL write of ENABLE = 1 checks the multicast tree and enables the group or is refused. -/
  | groupEnable (g : Nat)
  /-- GROUP_DISABLE (R130): A GROUP_CTRL write of ENABLE = 0 starts the drain toward DRAINED. -/
  | groupDisable (g : Nat)
  /-- GROUP_DRAINED (R130): DRAINED is set at the first tick at least 32 × RESIDUE_TIMEOUT after the disable. -/
  | groupDrained (g : Nat)
  /-- START_CTX (R317): ENG_CMD START_CTX queues a context start at an entry. -/
  | startCtx (i entry : Nat)
  /-- DENY_CLEAR (R368): Any write clears DENY_FIRST and both denial counts. -/
  | denyClear (l : Nat)
  /-- LOG_CLEAR (R454): Any write clears both records and all counts of a log. -/
  | logClear (log : Nat)
  /-- PV_RELEASE (R451): Any write releases a quarantined endpoint port. -/
  | pvRelease (l : Nat)
  /-- SHUTTLE_TICK (R402): The 1 ms control tick measures the domain clocks and records the violation and retrain windows. -/
  | shuttleTick (measured : List (Nat × Nat)) (storeError : Bool)
  /-- TABLE_REPAIR (R446): The Shuttle rewrites a table entry with an uncorrectable error from its own copy. -/
  | tableRepair (e : TabErr)
  /-- AGE_MEASURE (R513): Every 1,000 ticks in P0 the aging monitor measures DEGRADE and raises WARN at AGE_WARN. -/
  | ageMeasure (d degrade : Nat)
  /-- LOG_EVENT_ARRIVAL (R527): An event crosses into the always-on domain and is applied to its log, counts, ERR_PENDING and interrupts. -/
  | logEventArrival (logs : List Nat)
  /-- INGRESS_PACKET (R240): An agent presents a whole packet on one ingress channel of the endpoint port. -/
  | ingressPacket (l : Nat) (bus : List BusFlit)
  /-- INJECTION_ADMIT (R246, R247): The injection arbiter moves a header into I1, which checks, splits, guards, polices, shapes, numbers and stores it. -/
  | injectionAdmit (l : Nat) (e : Option TabErr) (stateErr : Bool)
  /-- HELD_STORE_RELEASE (R248, R286): A held packet passes its shapers and goes on to injection under the virtual port scheduler. -/
  | heldStoreRelease (l : Nat)
  /-- C0_START (R171): At a thread's start slot, the queued class-0 copy enters I1. -/
  | c0Start (l rsv : Nat)
  /-- EGRESS_CREDIT (R243): The agent returns an egress credit for a channel. -/
  | egressCredit (l ch n : Nat)
  /-- EGRESS_PACKET_START (R256): The NI starts presenting a packet of classes 1–3 on the egress bus once it has credit and room before class 0. -/
  | egressPacketStart (l : Nat)
  /-- AGENT_RDY_RISE (R268): hy_ep_agent_rdy rises and the port passes through OPENING to OPEN. -/
  | agentRdyRise (l : Nat)
  /-- AGENT_RDY_FALL (R268): hy_ep_agent_rdy falls and the NI enters AGENT_DOWN. -/
  | agentRdyFall (l : Nat)
  /-- NI_OPEN_WAIT_END (R269): FLOW_IDLE_TIME after an NI reset has passed, and the port may start opening. -/
  | niOpenWaitEnd (l : Nat)
  /-- RD (R51, R76): A memory read arrives at its destination NI and is classified and delivered. -/
  | rd (l : Nat) (p : Pkt)
  /-- RD_IO (R51, R76): A device read arrives at its destination NI. -/
  | rdIo (l : Nat) (p : Pkt)
  /-- RD_CFG (R51, R76): A configuration read arrives at its destination NI. -/
  | rdCfg (l : Nat) (p : Pkt)
  /-- RD_SCRATCH (R300, R305): A scratch read is served through scratch port B. -/
  | rdScratch (l : Nat) (p : Pkt)
  /-- WR_NP (R51, R76): A non-posted write arrives at its destination NI. -/
  | wrNp (l : Nat) (p : Pkt)
  /-- WR_P (R76): A posted write arrives at its destination NI and is classified by SEQ. -/
  | wrP (l : Nat) (p : Pkt) (stateErr : Bool)
  /-- WR_NP_PART (R63, R76): A non-posted partial write under BE arrives. -/
  | wrNpPart (l : Nat) (p : Pkt)
  /-- WR_P_PART (R63, R76): A posted partial write under BE arrives. -/
  | wrPPart (l : Nat) (p : Pkt)
  /-- WR_INLINE_P (R51, R76): A posted inline write arrives. -/
  | wrInlineP (l : Nat) (p : Pkt)
  /-- WR_CFG (R51, R76): A configuration write arrives. -/
  | wrCfg (l : Nat) (p : Pkt)
  /-- WR_SCRATCH (R300, R305): A scratch write is served through scratch port B. -/
  | wrScratch (l : Nat) (p : Pkt)
  /-- AT_ADD (R332): An integer add atomic is executed by the atomic path or delivered. -/
  | atAdd (l : Nat) (p : Pkt)
  /-- AT_SWAP (R332): A swap atomic is executed. -/
  | atSwap (l : Nat) (p : Pkt)
  /-- AT_CAS (R332): A compare-and-swap atomic is executed. -/
  | atCas (l : Nat) (p : Pkt)
  /-- AT_SMIN (R332): A signed-minimum atomic is executed. -/
  | atSmin (l : Nat) (p : Pkt)
  /-- AT_SMAX (R332): A signed-maximum atomic is executed. -/
  | atSmax (l : Nat) (p : Pkt)
  /-- AT_UMIN (R332): An unsigned-minimum atomic is executed. -/
  | atUmin (l : Nat) (p : Pkt)
  /-- AT_UMAX (R332): An unsigned-maximum atomic is executed. -/
  | atUmax (l : Nat) (p : Pkt)
  /-- AT_AND (R332): A bitwise AND atomic is executed. -/
  | atAnd (l : Nat) (p : Pkt)
  /-- AT_OR (R332): A bitwise OR atomic is executed. -/
  | atOr (l : Nat) (p : Pkt)
  /-- AT_XOR (R332): A bitwise XOR atomic is executed. -/
  | atXor (l : Nat) (p : Pkt)
  /-- AT_FADD (R332): A floating-point add atomic is executed. -/
  | atFadd (l : Nat) (p : Pkt)
  /-- ATOMIC_LOCK_ACQUIRE (R334): A waiting atomic path entry takes the block lock and issues its read. -/
  | atomicLockAcquire (i entry : Nat)
  /-- COLL_CONTRIB (R337): A reduction contribution is combined into its round's accumulator. -/
  | collContrib (l : Nat) (p : Pkt)
  /-- COLL_RESULT (R340): A received reduction result is written at RES_ADDR and its event is signalled. -/
  | collResult (l : Nat) (p : Pkt)
  /-- COLL_TIMEOUT (R342): COLL_TIMEOUT passes after a round's first contribution, and the round is abandoned. -/
  | collTimeout (i desc : Nat)
  /-- ENG_INVOKE (R317): An engine invocation enters the invocation queue, or is refused when the queue is full or invocations are disabled. -/
  | engInvoke (l : Nat) (p : Pkt)
  /-- ENG_EVENT (R315, R317): An engine event adds COUNT to an event counter or starts a context. -/
  | engEvent (l : Nat) (p : Pkt)
  /-- CONTEXT_ALLOCATE (R317, R318): The oldest queued start takes the lowest FREE context. -/
  | contextAllocate (i : Nat)
  /-- CONTEXT_END (R322): A finished context is freed once its memory operations and sends complete. -/
  | contextEnd (i c : Nat)
  /-- COH_N (R57): A coherence command is delivered as a posted packet and acknowledged. -/
  | cohN (l : Nat) (p : Pkt)
  /-- MSG (R51): A message datagram arrives. -/
  | msg (l : Nat) (p : Pkt)
  /-- MSG_INLINE (R51): An inline message arrives. -/
  | msgInline (l : Nat) (p : Pkt)
  /-- MSG_INTR (R51): An interrupt message arrives. -/
  | msgIntr (l : Nat) (p : Pkt)
  /-- RSP (R56, R253): A completion without data frees its fabric tag and is presented or consumed. -/
  | rsp (l : Nat) (p : Pkt)
  /-- RSP_DATA (R56, R251): A completion with data is presented, merged for a split read. -/
  | rspData (l : Nat) (p : Pkt)
  /-- RSP_DATA_INLINE (R56): A completion with inline data arrives. -/
  | rspDataInline (l : Nat) (p : Pkt)
  /-- RSP_MGMT (R55, R466): A management completion arrives. -/
  | rspMgmt (l : Nat) (p : Pkt)
  /-- POSTED_ACK (R262): A coalesced acknowledgement releases posted packets from the retransmit store. -/
  | postedAck (l : Nat) (p : Pkt)
  /-- NACK_RETRY (R78): The initiator retransmits a flow from EXPECT_SEQ, ignores the NACK, or fails the flow. -/
  | nackRetry (l : Nat) (p : Pkt)
  /-- PARTIAL_DELIVERY (R137): A multicast partial-delivery report is consumed by the source NI. -/
  | partialDelivery (l : Nat) (p : Pkt)
  /-- NP_TIMEOUT_FIRST (R253): The first NP_TIMEOUT expiry presents a TIMEOUT completion. -/
  | npTimeoutFirst (l tag : Nat)
  /-- NP_TIMEOUT_SECOND (R253): The second NP_TIMEOUT expiry frees the tag and the retransmit copy. -/
  | npTimeoutSecond (l tag : Nat)
  /-- RETX_TIMEOUT (R263): An unacknowledged posted packet reaches RETX_TIMEOUT, and the flow is retransmitted. -/
  | retxTimeout (l : Nat) (k : FlowKey)
  /-- NACK_REPEAT_TIME (R77): An outstanding NACK is repeated with CAUSE 3. -/
  | nackRepeatTime (l : Nat) (k : FlowKey)
  /-- ACK_DELAY (R260): ACK_DELAY passes and the run is acknowledged by POSTED_ACK. -/
  | ackDelay (l : Nat) (k : FlowKey)
  /-- FLOW_IDLE_TIME (R80, R261, R265): A flow has been idle for FLOW_IDLE_TIME; its state is discarded or a closed flow reopens. -/
  | flowIdleTime (l : Nat) (source : Bool) (k : FlowKey)
  /-- M_EJECT_TIMEOUT (R73): A VN M head packet waiting past the timeout is discarded and acknowledged. -/
  | mEjectTimeout (l : Nat)
  /-- TWIN_HOLD_EXPIRY (R184): The twin hold timer reaches TWIN_WINDOW; missing SEQs are declared lost and held packets are delivered. -/
  | twinHoldExpiry (l : Nat) (k : FlowKey)
  /-- TWIN_MISS (R187): No twin copy arrives within TWIN_WINDOW, and the thread's miss count rises toward THREAD_DOWN. -/
  | twinMiss (l : Nat) (k : FlowKey) (threadB : Bool)
  /-- LINK_FLIT_RECEIVE (R438): A router or NI input receives a flit, checks SECDED and LSEQ, and routes a header. -/
  | linkFlitReceive (e : LinkEnd) (w : WireFlit) (t : Option TabErr)
  /-- LINK_RESET_REOPEN (R440): 16 fc after a link reset, the link reopens with LSEQ 0 and fresh credits. -/
  | linkResetReopen (e : LinkEnd)
  /-- ROUTER_ALLOCATION (R109): Eligible head packets are matched to outputs and planes by request, grant and accept. -/
  | routerAllocation (r : Nat) (parity : Bool)
  /-- LINK_PACKET_SELECT (R205): An output chooses and starts the next class 1–3 packet by deficit-weighted round robin under gating. -/
  | linkPacketSelect (r p : Nat)
  /-- RESIDUE_TIMEOUT (R135): A multicast packet's residue timer expires; its pending ports are abandoned and PARTIAL_DELIVERY is sent. -/
  | residueTimeout (r p vc : Nat)
  /-- ROUTE_STATE_ARRIVAL (R96): A change of ROUTE_PORT_ALIVE or PORT_AVOID reaches a router. -/
  | routeStateArrival (r : Nat)
  /-- DT_ALPHA_ARRIVAL (R118): A DT_ALPHA write reaches a router and applies at its next admission. -/
  | dtAlphaArrival (r : Nat)
  /-- CLASS_WEIGHT_ARRIVAL (R214): A CLASS_WEIGHT write reaches an output and applies at its next round boundary. -/
  | classWeightArrival (e : LinkEnd)
  /-- SUPERFRAME_SEND (R372): Each direction of a port sends a superframe every 8 fc. -/
  | superframeSend (p : Nat)
  /-- FRAME_RECEIVE (R382): A receiving channel checks a frame's CRC and LSEQ, then accepts or discards it and processes its trailer. -/
  | frameReceive (p : Nat) (f : RxFrame)
  /-- NAK_REPEAT (R382): While discarding, the receiver repeats its NAK every 64 fc. -/
  | nakRepeat (p ch : Nat)
  /-- RELEASE_STAGE (R378): The release stage passes a class 1–3 packet into the Z router once it has room and fits before class 0. -/
  | releaseStage (p ch : Nat)
  /-- C0_RELEASE (R166): A class-0 flit is released into its Z router in the fc fixed by its sending slot. -/
  | c0Release (p ch : Nat)
  /-- DETECT_TIMEOUT (R386): No answer in DETECT within 1 ms; TRAIN_CAUSE becomes NO_PEER and detection retries. -/
  | detectTimeout (p : Nat)
  /-- TRAIN (R386): A sideband TRAIN message from the far end advances detection and lane training. -/
  | train (r : TrainRx)
  /-- LANE_TRAIN_DONE (R387): PRBS lane testing ends; lanes are mapped and the link goes to PARAM, or to FAILED. -/
  | laneTrainDone (p : Nat) (x : LaneResult)
  /-- PARAM (R388): A received PARAM is matched, setting PEER_ID and PORT_DIR and reaching UP, or leads to MISMATCH. -/
  | param (r : SbRx) (x : ParamMsg)
  /-- PARAM_REPEAT (R386): In MISMATCH, PARAM is repeated every 1 ms. -/
  | paramRepeat (p : Nat)
  /-- RETRAIN_REQ (R386): The far end's retrain request moves the link to RETRAIN. -/
  | retrainReq (r : SbRx) (cause : Nat)
  /-- LINK_DOWN (R524): A received LINK_DOWN sends the link to DETECT and discards its contents. -/
  | linkDown (r : SbRx)
  /-- SIDEBAND_REPEAT (R397): A sideband message dropped for a bad CRC is repeated by its sender after 100 µs. -/
  | sidebandRepeat (t : SbSent)
  /-- SERDES_UP_CHANGE (R396): hy_lr_up_b changes and the bundle's channel enters or leaves the trained set. -/
  | serdesUpChange (p b : Nat) (up : Bool)
  /-- PRK_DIGEST (R192): A neighbour's crossing digest is received for the XING_MISMATCH check. -/
  | prkDigest (r : SbRx) (digest : BitVec 32)
  /-- PWR_REQ (R432): A far end's link power request is received, and the link enters the shallower of the two requested states. -/
  | pwrReq (r : SbRx) (code : Nat)
  /-- LINK_IDLE_THRESHOLD (R432): A link's idle threshold passes, and it requests a lower link power state. -/
  | linkIdleThreshold (p code : Nat)
  /-- TIME_ADV (R153): A neighbour's time advertisement updates the upstream choice and conflict detection. -/
  | timeAdv (r : SbRx) (x : TimeAdv)
  /-- TIME_ADV_SEND (R153): An instance advertises its time position at least once per 1 ms. -/
  | timeAdvSend
  /-- TIME_EXCHANGE_START (R154): Once per 1 ms a follower starts a timestamp exchange toward its upstream. -/
  | timeExchangeStart
  /-- TS_VALUES (R154): Received t2 and t3 give θ, which the follower steps or slews and uses to update TIME_STATE. -/
  | tsValues (r : SbRx) (t2 t3 : Nat)
  /-- TS_EXCHANGE_TIMEOUT (R398): An exchange without TS_VALUES after 200 µs is abandoned and counted. -/
  | tsExchangeTimeout
  /-- HOLDOVER_ENTRY (R156): No exchange completed for 3 ms and no other port leads to the master; TIME_STATE goes to HOLDOVER. -/
  | holdoverEntry
  /-- HOLDOVER_LIMIT (R156): HOLDOVER_LIMIT passes and TIME_STATE enters FAULT. -/
  | holdoverLimit
  /-- CONFLICT_CLEAR (R158): After 3 ms with no conflict, the CONFLICT flag clears. -/
  | conflictClear
  /-- PPS_EDGE (R150): A rising hy_pps edge is timestamped and used to correct the master's time, or rejected. -/
  | ppsEdge
  /-- TOD_LATCH (R149): The master latches hy_tod at the end of its valid interval. -/
  | todLatch (ns : BitVec 64)
  /-- PPS_LOSS (R152): No PPS edge has been used for 2 s, and PPS_STATUS.PRESENT clears. -/
  | ppsLoss
  /-- SLOT_MISALIGN (R160): |SLOT_ERR| exceeds 2 while the pricking is ACTIVE; TIME_STATE enters FAULT. -/
  | slotMisalign
  /-- BRIDGE_FAR_RESET (R410): One side of a bridge enters reset, and the survivor discards, fills and withholds credit. -/
  | bridgeFarReset (d : Nat)
  /-- BRIDGE_REOPEN (R410): Both sides are out of reset, and the bridge resets its credits and reopens after one RT. -/
  | bridgeReopen (d : Nat)
  /-- BRIDGE_DEAD (R411): The heartbeat counter reaches DEAD_TIMEOUT, and the bridge is declared dead. -/
  | bridgeDead (d : Nat)
  /-- PWR_ACK (R416): hy_pwr_ack reaches the requested supply state for a domain. -/
  | pwrAck (d code : Nat)
  /-- PWR_ACK_TIMEOUT (R416): The ack has not followed within PWR_ACK_TIMEOUT, and the domain's bridges are dead. -/
  | pwrAckTimeout (d : Nat)
  /-- DOMAIN_IDLE_THRESHOLD (R420): A domain's idle threshold is reached, and it enters CLOSING toward a deeper state. -/
  | domainIdleThreshold (d : Nat)
  /-- DOMAIN_CLOSE_DRAINED (R427): A CLOSING domain holds no flit, and its clock is gated or its supply request is issued. -/
  | domainCloseDrained (d : Nat)
  /-- CLOSE_TIMEOUT (R429): CLOSING has not drained in time; the domain returns to P0 and CLOSE_ABORT is counted. -/
  | closeTimeout (d : Nat)
  /-- WAKE_SEQUENCE_START (R422): The wake sequencer acts on a hint and wakes every domain on the packet's route. -/
  | wakeSequenceStart
  /-- DOMAIN_WAKE_DONE (R425): A waking domain's bridges reopen after any restore, and held packets are released. -/
  | domainWakeDone (d : Nat)
  /-- LIFECYCLE_CHANGE (R359): hy_lifecycle changes and applies to headers judged from 4 fc later. -/
  | lifecycleChange (v : BitVec 4)
  /-- CONTEXT_TIMER_FIRE (R316): Fabric time reaches a context's timer compare value, and its flag is set. -/
  | contextTimerFire (i c : Nat)
  /-- WATCHDOG (R346): A context issues more than WATCHDOG instructions without a yield point and faults. -/
  | watchdog (i c : Nat)
  /-- ALU (R308): Register-register arithmetic, selected by FN. -/
  | alu (i c : Nat)
  /-- ADDI (R308): Add a sign-extended immediate. -/
  | addi (i c : Nat)
  /-- ANDI (R308): AND with a zero-extended immediate. -/
  | andi (i c : Nat)
  /-- ORI (R308): OR with a zero-extended immediate. -/
  | ori (i c : Nat)
  /-- XORI (R308): XOR with a zero-extended immediate. -/
  | xori (i c : Nat)
  /-- SHI (R308): Shift by an immediate amount. -/
  | shi (i c : Nat)
  /-- LUI (R308): Load a shifted immediate. -/
  | lui (i c : Nat)
  /-- SLTI (R308): Signed compare with an immediate. -/
  | slti (i c : Nat)
  /-- BEQ (R308): Branch if equal. -/
  | beq (i c : Nat)
  /-- BNE (R308): Branch if not equal. -/
  | bne (i c : Nat)
  /-- BLT (R308): Branch if signed less than. -/
  | blt (i c : Nat)
  /-- BGE (R308): Branch if signed greater or equal. -/
  | bge (i c : Nat)
  /-- BLTU (R308): Branch if unsigned less than. -/
  | bltu (i c : Nat)
  /-- BGEU (R308): Branch if unsigned greater or equal. -/
  | bgeu (i c : Nat)
  /-- JAL (R308): Jump to an immediate address and link. -/
  | jal (i c : Nat)
  /-- JALR (R308): Jump to a register address and link. -/
  | jalr (i c : Nat)
  /-- LD (R308): Zero-extending scratch load. -/
  | ld (i c : Nat)
  /-- LDS (R308): Sign-extending scratch load. -/
  | lds (i c : Nat)
  /-- ST (R308): Scratch store of SIZE bytes. -/
  | st (i c : Nat)
  /-- WLD (R308): 64 B wide load from scratch. -/
  | wld (i c : Nat)
  /-- WST (R308): 64 B wide store to scratch. -/
  | wst (i c : Nat)
  /-- XTR (R308): Extract a bit field from a wide register. -/
  | xtr (i c : Nat)
  /-- SPL (R308): Splice a bit field into a wide register. -/
  | spl (i c : Nat)
  /-- WGET (R308): Read one 64-bit word of a wide register. -/
  | wget (i c : Nat)
  /-- WPUT (R308): Write one 64-bit word of a wide register. -/
  | wput (i c : Nat)
  /-- WOP (R308): Wide move, zero or bitwise operation. -/
  | wop (i c : Nat)
  /-- SEND (R308): An engine sends a packet from a wide header register and scratch data. -/
  | send (i c : Nat)
  /-- SENDL (R308): An engine sends one posted copy to each fabric ID in a scratch list. -/
  | sendl (i c : Nat)
  /-- RECV (R308): Take the oldest completion from the receive queue. -/
  | recv (i c : Nat)
  /-- FINISH (R308): End the context and send its invocation completion. -/
  | finish (i c : Nat)
  /-- MRD (R308): Read 64 B of memory into a wide register through the memory port. -/
  | mrd (i c : Nat)
  /-- MWR (R308): Write a wide register to memory under a byte mask. -/
  | mwr (i c : Nat)
  /-- MAMO (R308): Run an atomic through the engine's atomic path. -/
  | mamo (i c : Nat)
  /-- MRDS (R308): Read 64 B of memory into scratch. -/
  | mrds (i c : Nat)
  /-- MWAIT (R308): Wait until at most N memory writes and reads are outstanding. -/
  | mwait (i c : Nat)
  /-- WRED (R308): Lane-wise reduce two wide registers. -/
  | wred (i c : Nat)
  /-- CONTRIB (R308): Make a local contribution to a collective descriptor. -/
  | contrib (i c : Nat)
  /-- COPEN (R308): Root a collective descriptor in this context. -/
  | copen (i c : Nat)
  /-- WAIT (R308): Wait for an event counter or the context timer. -/
  | wait (i c : Nat)
  /-- EVSIG (R308): Add N to an event counter, saturating. -/
  | evsig (i c : Nat)
  /-- TIMER (R308): Arm the context timer at a fabric time. -/
  | timer (i c : Nat)
  /-- YIELD (R308): Place the context last in rotation. -/
  | yield (i c : Nat)
  /-- MFS (R308): Read a special value. -/
  | mfs (i c : Nat)
  /-- MFC (R308): Read a host NI event counter directly. -/
  | mfc (i c : Nat)
  /-- SET_ENDPOINT_ID (R471, R481): The MCTP control command Set Endpoint ID assigns MCTP_EID and makes its sender the endpoint to which STORE sends the image. -/
  | setEndpointId (eid sender : Nat)
  /-- ENTDAA (R471): The I3C controller's ENTDAA assigns the Shuttle its dynamic address, reported in I3C_DYN_ADDR. -/
  | entdaa (addr : BitVec 7)
  /-- NI_RUNNING (R267): A STARTING NI has granted its withheld ingress credits and enters RUNNING. -/
  | niRunning (l : Nat)
  /-- LINK_PWR_EXIT_DONE (R431): A link leaving STANDBY, SLEEP or OFF completes its exit latency and returns to ACTIVE. -/
  | linkPwrExitDone (p : Nat)
  /-- WS_EXTEST (R517): The IEEE 1500 wrapper loads WS_EXTEST, and boundary cells take the endpoint ports, power handshake, time and lifecycle inputs. -/
  | wsExtest
  /-- WS_INTEST (R517): The wrapper loads WS_INTEST, and boundary cells drive the core while the instance is in reset or fully STOPPED. -/
  | wsIntest
  /-- HY_MBIST (R517): The wrapper loads HY_MBIST, which tests every buffer, queue, table, scratch and instruction store and reports pass or fail per memory. -/
  | hyMbist
  /-- HY_FABRIC_BIST (R517): The wrapper loads HY_FABRIC_BIST, putting routers into cyclic mode with ALLOC_STATUS.CAUSE = 1 and running patterns over every port and plane. -/
  | hyFabricBist
  /-- HY_MEM_READ (R517, R518): The wrapper loads HY_MEM_READ and reads memory contents out, returning zeros for protected memories unless hy_lifecycle reads OPEN. -/
  | hyMemRead (mem addr : Nat)deriving DecidableEq, Repr

end Sys2Proof
end

