-- ==== Sys2Proof/Config.lean ====
section
/-! DEFINITION. What an instance is generated with (R4, R508), the reference instance that State.reset describes, and
the free values: what the manual leaves open, as constants nothing can evaluate. -/

namespace Sys2Proof

/-- One valid entry of the NI map (R24 and the NI_MAP field table). `port` is the LA_PORT code, 4 or 5. -/
structure GenNi where
  loc : Nat
  kind : Nat
  x : Nat
  y : Nat
  port : Nat
  engines : Nat
  dom : Nat
deriving DecidableEq, Repr

/-- One Ndesil port: its PHY kind, the router of each of its six channels (R16) and its link-layer domain. -/
structure GenPort where
  p : Nat
  phy : Nat
  zrouters : List Nat
  dom : Nat
deriving DecidableEq, Repr

/-- One clock domain (R400): kind 0 always-on, 1 router region, 2 NI domain, 3 link layer; frequency in MHz. -/
structure GenDom where
  d : Nat
  kind : Nat
  freq : Nat
deriving DecidableEq, Repr

/-- The generated description of an instance (R4, R508). Every CONST object is computed from it. -/
structure Gen where
  dimX : Nat
  dimY : Nat
  nis : List GenNi
  ports : List GenPort
  doms : List GenDom
  /-- Clock region of router r, where it is not domain 1. -/
  regions : Tab Nat
  /-- Router and port of each on-die link longer than 2.5 mm, as r * 8 + p. -/
  longLinks : List Nat
  /-- Where the routers stand on the die, in µm; one that is not listed stands at the origin. -/
  place : Tab (Nat × Nat)
  /-- Wire characterisation, in ps/mm and fJ/bit/mm, and identity numbers. -/
  wireDelay : Nat
  wireEnergy : Nat
  vendorIana : Nat
  i3cPid : Nat
deriving DecidableEq, Repr

namespace Config

/-- Position of row or column n of the folded 6 × 6 die, in µm: neighbours of a ring stand at most 1.5 mm apart. -/
def refPlace (n : Nat) : Nat := 750 * (if n < 3 then 2 * n else 11 - 2 * n)

/-- DESIGN CHOICE (log 1): the reference instance, on the manual's 6 × 6 compute die: an initiator NI 0x05 at (4, 1),
a target NI 0x21 with one engine at (1, 3), a combined NI 0x22 with one engine at (2, 2), one short-reach port. -/
def refGen : Gen where
  dimX := 6
  dimY := 6
  nis := [⟨0x00, 0, 0, 0, 4, 0, 2⟩, ⟨0x05, 1, 4, 1, 4, 0, 2⟩, ⟨0x21, 2, 1, 3, 4, 1, 2⟩, ⟨0x22, 3, 2, 2, 4, 1, 2⟩]
  ports := [⟨0, 0, [5, 21, 37, 53, 69, 85], 3⟩]
  doms := [⟨0, 0, 25⟩, ⟨1, 1, 2000⟩, ⟨2, 2, 2000⟩, ⟨3, 3, 2000⟩]
  regions := []
  longLinks := []
  place := (List.range 6).flatMap fun y => (List.range 6).map fun x => (16 * y + x, refPlace x, refPlace y)
  wireDelay := 170
  wireEnergy := 12
  vendorIana := 0
  i3cPid := 0

/-- FREE VALUE (log 7): sign and payload of the NaN a lane-wise reduction produces (R338 states neither). -/
opaque freeNan : Nat → BitVec 32

/-- FREE VALUE (log 8): whether HY_MBIST finds memory n good (R517 says only that it reports). -/
opaque mbistPass : Nat → Bool

/-- FREE VALUE (log 42): what HY_MEM_READ reads of a memory whose layout R517 does not give. -/
opaque memImage (mem addr n : Nat) : Nat

/-- FREE VALUE (log 31): slots a thread of reservation `rsv` takes outside this instance (R178, R181: h + 16c there). -/
opaque farSteps (rsv n : Nat) : Nat

/-- FREE VALUE (log 31): whether a target in another instance has the reverse flow R190 asks for. -/
opaque farReverse (dest n : Nat) : Bool

/-- FREE VALUE (log 95): whether the pricking of another instance is ACTIVE at a slot clock value (R151). -/
opaque farPricking : Nat → Bool

/-- FREE VALUE (log 178): the fixed receive latency of a customer PHY, UCIe or SerDes, of port p in fc, from its bumps to the
verdict on the frame (R377, R398). -/
opaque phyRxLatency : Nat → Nat

/-- FREE VALUE (log 71): whether the eight attempts of a value's double sampling all fail to agree (R408), applied to the model's
own counter. -/
opaque fallback : Nat → Bool

/-- FREE VALUE (log 32): the bytes of a list of (RSV_ID, slot) pairs as R192's CRC takes them in. -/
opaque digestBytes : List (Nat × Nat) → List Byte

end Config

end Sys2Proof
end

