-- ==== Sys2Proof/Machine/Bits.lean ====
section
/-! DEFINITION. Bit fields, byte order, the header layout (R43), CRC-32C (R86, R87), CRC16 (R376), the flit on the wire
(R33-R35) and its SECDED code (R38-R40). -/

namespace Sys2Proof

/-- ⌈a / b⌉. -/
def ceilDiv (a b : Nat) : Nat := (a + b - 1) / b

/-- Bits [hi:lo] of a number. -/
def fld (w hi lo : Nat) : Nat := w / 2 ^ lo % 2 ^ (hi + 1 - lo)

/-- One bit of a number. -/
def bit (w i : Nat) : Bool := w / 2 ^ i % 2 == 1

/-- A number with bits [hi:lo] replaced. -/
def setFld (w hi lo v : Nat) : Nat :=
  w - fld w hi lo * 2 ^ lo + v % 2 ^ (hi + 1 - lo) * 2 ^ lo

/-- A number with one bit replaced. -/
def setBit (w i : Nat) (b : Bool) : Nat := setFld w i i b.toNat

/-- A two's-complement value of a `w`-bit number. -/
def toSigned (w v : Nat) : Int := if v < 2 ^ (w - 1) then (v : Int) else (v : Int) - (2 ^ w : Nat)

/-- The `w`-bit number of an integer. -/
def ofSigned (w : Nat) (x : Int) : Nat := (x % (2 ^ w : Nat)).toNat

/-- The low `n` bytes of a number, least significant first. -/
def toBytes (v : Nat) : Nat → List Byte
  | 0 => []
  | n + 1 => BitVec.ofNat 8 v :: toBytes (v / 256) n

/-- The number whose bytes, least significant first, are given. -/
def ofBytes : List Byte → Nat
  | [] => 0
  | b :: bs => b.toNat + 256 * ofBytes bs


/-! ### CRC -/

/-- Eight steps of the reflected CRC-32C register (polynomial 0x1EDC_6F41, R86). -/
def crc32Bits : Nat → Nat → Nat
  | c, 0 => c
  | c, n + 1 => crc32Bits (if c % 2 = 1 then (c / 2) ^^^ 0x82F63B78 else c / 2) n

def crc32Reg : Nat → List Byte → Nat
  | c, [] => c
  | c, b :: bs => crc32Reg (crc32Bits (c ^^^ b.toNat) 8) bs

/-- CRC-32C (R86). -/
def crc32c (bs : List Byte) : Nat := crc32Reg 0xFFFFFFFF bs ^^^ 0xFFFFFFFF

/-- `n` bits of `v`, most significant first, through the CRC16 register (polynomial 0x1021, R376). -/
def crc16Bits (c v : Nat) : Nat → Nat
  | 0 => c
  | n + 1 =>
    let top := c / 32768 % 2
    let b := v / 2 ^ n % 2
    crc16Bits (if top ^^^ b = 1 then ((c * 2) % 65536) ^^^ 0x1021 else (c * 2) % 65536) v n

/-! ### The header -/

/-- The header flit payload (R43). -/
def Hdr.nat (h : Hdr) : Nat :=
  h.dest.toNat * 2 ^ 496 + h.src.toNat * 2 ^ 480 + h.vn.toNat * 2 ^ 477 + h.cls.toNat * 2 ^ 475 +
  h.mcast.toNat * 2 ^ 474 + h.laPort.toNat * 2 ^ 471 + h.dateline.toNat * 2 ^ 470 + h.cmd.toNat * 2 ^ 462 +
  h.tag.toNat * 2 ^ 450 + h.len.toNat * 2 ^ 441 + h.vport.toNat * 2 ^ 431 + h.addr.toNat * 2 ^ 375 +
  h.seq.toNat * 2 ^ 359 + h.injTime.toNat * 2 ^ 327 + h.rsvId.toNat * 2 ^ 311 + h.be.toNat * 2 ^ 247 +
  h.csf.toNat * 2 ^ 32 + h.crc.toNat

def Hdr.bits (h : Hdr) : Payload := BitVec.ofNat 512 h.nat

/-- The header a header flit payload holds (R43). -/
def Hdr.ofBits (b : Payload) : Hdr where
  dest := b.extractLsb' 496 16
  src := b.extractLsb' 480 16
  vn := b.extractLsb' 477 3
  cls := b.extractLsb' 475 2
  mcast := b.getLsbD 474
  laPort := b.extractLsb' 471 3
  dateline := b.getLsbD 470
  cmd := b.extractLsb' 462 8
  tag := b.extractLsb' 450 12
  len := b.extractLsb' 441 9
  vport := b.extractLsb' 431 10
  addr := b.extractLsb' 375 56
  seq := b.extractLsb' 359 16
  injTime := b.extractLsb' 327 32
  rsvId := b.extractLsb' 311 16
  be := b.extractLsb' 247 64
  csf := b.extractLsb' 32 215
  crc := b.extractLsb' 0 32

/-- Header bits [hi:lo] inside CSF (R49 numbers them as header bits). -/
def Hdr.csfFld (h : Hdr) (hi lo : Nat) : Nat := fld h.csf.toNat (hi - 32) (lo - 32)

/-- A header with CSF bits [hi:lo] set. -/
def Hdr.setCsf (h : Hdr) (hi lo v : Nat) : Hdr :=
  { h with csf := BitVec.ofNat 215 (setFld h.csf.toNat (hi - 32) (lo - 32) v) }

/-- The fields of a header with nothing in them. -/
def Hdr.zero : Hdr := Hdr.ofBits 0

/-- The first `len` payload bytes of data flits (R48). -/
def payloadBytes (data : List Payload) (len : Nat) : List Byte :=
  (data.flatMap fun f => toBytes f.toNat 64).take len

/-- Data flits that carry `bs` (R48): `n` flits, the rest of the last one zero (R47). -/
def packBytes (bs : List Byte) : Nat → List Payload
  | 0 => []
  | n + 1 => BitVec.ofNat 512 (ofBytes (bs.take 64)) :: packBytes (bs.drop 64) n

/-- The bytes E2E_CRC covers (R87). -/
def Pkt.crcInput (p : Pkt) : List Byte :=
  let h := { p.hdr with laPort := 0, dateline := false, crc := 0 }
  (toBytes (h.nat / 2 ^ 32) 60).reverse ++ p.data.flatMap fun f => toBytes f.toNat 64

/-- E2E_CRC of a packet (R86-R88). -/
def Pkt.crc (p : Pkt) : BitVec 32 := BitVec.ofNat 32 (crc32c p.crcInput)

/-- The packet with its E2E_CRC computed. -/
def Pkt.seal (p : Pkt) : Pkt := { p with hdr := { p.hdr with crc := p.crc } }

def Pkt.crcGood (p : Pkt) : Bool := p.hdr.crc == p.crc

/-- Some flit is poisoned (R40); or E2E_CRC fails as well (R76, R82, R183). -/
def Pkt.poisoned (p : Pkt) : Bool := p.badHdr || !p.badData.isEmpty

def Pkt.isBad (p : Pkt) : Bool := p.poisoned || !p.crcGood

/-- Flits of a packet, header included (R62). -/
def Pkt.flits (p : Pkt) : Nat := 1 + p.data.length

/-- Payload bytes of a packet. -/
def Pkt.bytes (p : Pkt) : List Byte := payloadBytes p.data p.hdr.len.toNat

/-- A packet of a header and payload bytes, in ⌈n/64⌉ data flits. -/
def mkPkt (h : Hdr) (bs : List Byte) : Pkt := ⟨h, packBytes bs (ceilDiv bs.length 64), false, []⟩

/-! ### The wire -/

/-- Parity of a number below 2^256. -/
def parity (x : Nat) : Nat :=
  let x := x ^^^ (x / 2 ^ 128)
  let x := x ^^^ (x / 2 ^ 64)
  let x := x ^^^ (x / 2 ^ 32)
  let x := x ^^^ (x / 2 ^ 16)
  let x := x ^^^ (x / 2 ^ 8)
  let x := x ^^^ (x / 2 ^ 4)
  let x := x ^^^ (x / 2 ^ 2)
  let x := x ^^^ (x / 2)
  x % 2

/-- Code positions 1 to 143 of d0 to d134: every position that is no power of two (R39). -/
def eccPositions : List Nat := (List.range' 3 141).filter fun n => !([4, 8, 16, 32, 64, 128].contains n)

/-- The data bits check bit c_j covers, as a mask over d0 to d134 (R39). -/
def eccMask (j : Nat) : Nat :=
  (eccPositions.zipIdx.map fun (pos, i) => if bit pos j then 2 ^ i else 0).sum

/-- The eight check bits c_0 to c_7 of 135 data bits. -/
def eccBits (d : Nat) : Nat := ((List.range 8).map fun j => parity (d &&& eccMask j) * 2 ^ j).sum

/-- The check field of a group (R39). -/
def eccOf (d : Nat) : Nat :=
  let c := eccBits d
  c + (parity d ^^^ parity c) * 256

/-- What a receiver makes of one SECDED group (R40): the data bits and whether a bit was corrected, or nothing when the
error is uncorrectable. -/
def eccCheck (d chk : Nat) : Option (Nat × Bool) :=
  let syn := eccBits d ^^^ (chk % 256)
  let odd := parity d ^^^ parity chk
  if odd = 0 then (if syn = 0 then some (d, false) else none)
  else if syn = 0 || [1, 2, 4, 8, 16, 32, 64, 128].contains syn then some (d, true)
  else match eccPositions.findIdx? (· == syn) with
    | some i => some (d ^^^ 2 ^ i, true)
    | none => none

/-- CTRL (R34). -/
def Flit.ctrl (f : Flit) : Nat :=
  f.vc % 16 * 2 ^ 20 + f.ftype % 4 * 2 ^ 18 + f.poison.toNat * 2 ^ 17 + f.fvalid.toNat * 2 ^ 16 +
  f.crvalid.toNat * 2 ^ 15 + f.crvc % 16 * 2 ^ 11 + f.lseq % 256 * 2 ^ 3 + f.fidx % 8

/-- Data bits of SECDED group g (R38). -/
def groupData (body g : Nat) : Nat :=
  fld body (128 * g + 127) (128 * g) + fld body (517 + 6 * g) (512 + 6 * g) * 2 ^ 128 + fld body (536 + g) (536 + g) * 2 ^ 134

/-- One link cycle as 576 bits (R33), CHECK computed. -/
def Flit.pack (f : Flit) : WireFlit :=
  let body := f.payload.toNat + f.ctrl * 2 ^ 512
  BitVec.ofNat 576 (body + ((List.range 4).map fun g => eccOf (groupData body g) * 2 ^ (540 + 9 * g)).sum)

/-- The fields of a payload and CTRL word. -/
def Flit.ofParts (payload ctrl : Nat) : Flit :=
  { payload := BitVec.ofNat 512 payload, vc := fld ctrl 23 20, ftype := fld ctrl 19 18, poison := bit ctrl 17,
    fvalid := bit ctrl 16, crvalid := bit ctrl 15, crvc := fld ctrl 14 11, lseq := fld ctrl 10 3, fidx := fld ctrl 2 0 }

/-- What a receiver reads of a link cycle (R38-R40): the fields after correction, the groups corrected and the groups
uncorrectable, as bitmaps. -/
def unpackFlit (w : WireFlit) : Flit × Nat × Nat :=
  let n := w.toNat
  let gs := (List.range 4).map fun g =>
    (groupData n g, eccCheck (groupData n g) (fld n (548 + 9 * g) (540 + 9 * g)))
  let datas := gs.map fun (d, r) => (r.map (·.1)).getD d
  let payload := (datas.zipIdx.map fun (d, g) => d % 2 ^ 128 * 2 ^ (128 * g)).sum
  let ctrl := (datas.zipIdx.map fun (d, g) => fld d 133 128 * 2 ^ (6 * g)).sum
  let corr := (gs.zipIdx.map fun ((_, r), g) => if (r.map (·.2)).getD false then 2 ^ g else 0).sum
  let bad := (gs.zipIdx.map fun ((_, r), g) => if r.isNone then 2 ^ g else 0).sum
  (Flit.ofParts payload ctrl, corr, bad)

/-- An idle cycle that may return one credit (R35). -/
def idleFlit (credit : Option Nat) : Flit :=
  { payload := 0, vc := 0, ftype := 0, poison := false, fvalid := false, crvalid := credit.isSome,
    crvc := credit.getD 0, lseq := 0, fidx := 0 }

/-- Flit number `i` of a packet of `need` flits (R42); a flit the packet does not hold is a poisoned filler. -/
def Pkt.flit (p : Pkt) (need i vc lseq : Nat) (credit : Option Nat) : Flit :=
  { payload := if i = 0 then p.hdr.bits else p.data.getD (i - 1) 0
    vc := vc
    ftype := if i = 0 then (if need = 1 then 3 else 1) else if i + 1 = need then 2 else 0
    poison := if i = 0 then p.badHdr else p.badData.contains i || p.data.length < i
    fvalid := true, crvalid := credit.isSome, crvc := credit.getD 0, lseq := lseq, fidx := i }

/-- CRC16 of a frame (R376): flits in position order from wire bit 575, then trailer bits [159:16]; on a long-reach port
SF_HDR first (R397). -/
def Frame.trailer (f : Frame) : Nat :=
  f.ackLseq.toNat * 2 ^ 152 + f.ackValid.toNat * 2 ^ 151 + f.nak.toNat * 2 ^ 150 + f.tsMark.toNat * 2 ^ 148 +
  f.chan.toNat * 2 ^ 145 + f.replay.toNat * 2 ^ 144 + f.frameSlot.toNat * 2 ^ 128 + f.vcCredits.toNat * 2 ^ 80 +
  f.poolCredits.toNat * 2 ^ 76 + f.poolMap.toNat * 2 ^ 68 + f.crc.toNat

def Frame.crc16 (f : Frame) (long : Bool) : BitVec 16 :=
  let c := if long then crc16Bits 0xFFFF f.sfHdr.toNat 64 else 0xFFFF
  let c := f.flits.foldl (fun c w => crc16Bits c w.toNat 576) c
  BitVec.ofNat 16 (crc16Bits c (f.trailer / 2 ^ 16) 144)

/-- A frame with its CRC16 (R376, R397). -/
def Frame.seal (f : Frame) (long : Bool) : Frame := { f with crc := f.crc16 long }

/-! ### Superframes on the wire (R373, R393, R395) -/

/-- The bits of UI slot k of a superframe, its first bit the most significant: SF_HDR bits [8k+7:8k], flit position k of each
channel, trailer bits [159 - 20k : 140 - 20k] of each channel (R373). -/
def uiSlot (hdr : BitVec 64) (fs : List Frame) (k : Nat) : Nat :=
  let flits := fs.foldl (fun n f => n * 2 ^ 576 + (f.flits.getD k 0).toNat) (fld hdr.toNat (8 * k + 7) (8 * k))
  fs.foldl (fun n f => n * 2 ^ 20 + fld f.trailer (159 - 20 * k) (140 - 20 * k)) flits

/-- Bits of one UI slot of a superframe with n channels. -/
def uiSlotBits (n : Nat) : Nat := 8 + 596 * n

/-- The bits of a superframe, bit 0 of R373 the most significant. -/
def superframeBits (hdr : BitVec 64) (fs : List Frame) : Nat :=
  (List.range 8).foldl (fun n k => n * 2 ^ uiSlotBits fs.length + uiSlot hdr fs k) 0

/-- A superframe on `lanes` logical lanes in `uis` unit intervals, padded with zeros at its end (R393): superframe bit b is on
lane b mod `lanes` in unit interval b / `lanes` (R373). Each word holds the lanes of one unit interval, lane 0 most significant. -/
def laneWords (hdr : BitVec 64) (fs : List Frame) (lanes uis : Nat) : List Nat :=
  let n := superframeBits hdr fs * 2 ^ (lanes * uis - 8 * uiSlotBits fs.length)
  (List.range uis).map fun u => n / 2 ^ (lanes * (uis - 1 - u)) % 2 ^ lanes

/-- The stream of one long-reach bundle: SF_HDR, the eight flits and the trailer, first bit most significant (R395). -/
def Frame.streamBits (f : Frame) : Nat :=
  (f.flits.foldl (fun n w => n * 2 ^ 576 + w.toNat) f.sfHdr.toNat) * 2 ^ 160 + f.trailer

/-- Its eight eighths, one per fc, sof with the first (R395). -/
def Frame.beats (f : Frame) : List LrBeat :=
  (List.range 8).map fun i => ⟨BitVec.ofNat 604 (f.streamBits / 2 ^ (604 * (7 - i))), i == 0, false⟩

/-- The frame that eight eighths of bundle b spell (R395). -/
def Frame.ofBeats (b : Nat) (bs : List LrBeat) : Frame :=
  let n := bs.foldl (fun n x => n * 2 ^ 604 + x.data.toNat) 0
  { flits := (List.range 8).map fun k => BitVec.ofNat 576 (n / 2 ^ (160 + 576 * (7 - k)))
    ackLseq := BitVec.ofNat 8 (n / 2 ^ 152), ackValid := bit n 151, nak := bit n 150, tsMark := BitVec.ofNat 2 (n / 2 ^ 148)
    chan := BitVec.ofNat 3 (n / 2 ^ 145), on := b, replay := bit n 144, frameSlot := BitVec.ofNat 16 (n / 2 ^ 128)
    vcCredits := BitVec.ofNat 48 (n / 2 ^ 80), poolCredits := BitVec.ofNat 4 (n / 2 ^ 76), poolMap := BitVec.ofNat 8 (n / 2 ^ 68)
    crc := BitVec.ofNat 16 n, sfHdr := BitVec.ofNat 64 (n / 2 ^ 4768), rxErr := (bs.head?.map (·.err)).getD false }

/-- The frame received: eight eighths with sof at the first alone are one (R395). -/
def RxFrame.frame? : RxFrame → Option Frame
  | .channel f => some f
  | .bundle b bs => if bs.map (·.sof) = true :: List.replicate 7 false then some (.ofBeats b bs) else none

/-! ### Vendor messages over MCTP (R472) -/

/-- A vendor message: TYPE, IANA big-endian, VCODE, body. -/
def vendorMsg (iana vcode : Nat) (body : List Byte) : List Byte :=
  0x7F :: ((toBytes iana 4).reverse ++ BitVec.ofNat 8 vcode :: body)

/-- IANA and body of a vendor message of one VCODE. -/
def vendorBody (vcode : Nat) (b : List Byte) : Option (Nat × List Byte) :=
  if 6 ≤ b.length && b.getD 0 0 == 0x7F && (b.getD 5 0).toNat == vcode then some (ofBytes ((b.drop 1).take 4).reverse, b.drop 6) else none

/-- The number in bytes a to a + n - 1 of a body, little-endian. -/
def leAt (b : List Byte) (a n : Nat) : Nat := ofBytes ((b.drop a).take n)

/-- MG_REQ. -/
def MgReq.ofBytes (b : List Byte) : Option MgReq :=
  (vendorBody 1 b).bind fun (iana, x) =>
    if x.length < 10 then none
    else some { iana := BitVec.ofNat 32 iana, op := x.getD 0 0, target := BitVec.ofNat 16 (leAt x 2 2), index := BitVec.ofNat 16 (leAt x 4 2)
                sub := x.getD 6 0, size := leAt x 8 2, data := x.drop 10 }

/-- IMAGE_CHUNK: IANA, OFFSET and data, whose length is SIZE. -/
def chunkOf (b : List Byte) : Option (BitVec 32 × Nat × List Byte) :=
  (vendorBody 3 b).bind fun (iana, x) =>
    if 6 ≤ x.length && (x.drop 6).length == leAt x 4 2 then some (BitVec.ofNat 32 iana, leAt x 0 4, x.drop 6) else none

/-- IMAGE_END: IANA and TOTAL. -/
def imageEndOf (b : List Byte) : Option (BitVec 32 × Nat) :=
  (vendorBody 4 b).bind fun (iana, x) => if x.length = 4 then some (BitVec.ofNat 32 iana, leAt x 0 4) else none

/-- IMAGE_ACK: IANA and RESULT. -/
def imageAckOf (b : List Byte) : Option (BitVec 32 × Nat) :=
  (vendorBody 5 b).bind fun (iana, x) => if x.length = 1 then some (BitVec.ofNat 32 iana, (x.getD 0 0).toNat) else none

/-! ### Sideband messages (R397) -/

/-- CRC16 of a sideband message: TYPE, payload length, payload (R397). -/
def sbCrc (type : Nat) (payload : List Byte) : BitVec 16 :=
  BitVec.ofNat 16 ((BitVec.ofNat 8 type :: BitVec.ofNat 8 payload.length :: payload).foldl (fun c b => crc16Bits c b.toNat 8) 0xFFFF)

/-- A sideband message on the wire. PRESUMED (log 177): its CRC16 and the multi-byte values of its payload travel least
significant byte first, as everywhere else in the manual. -/
def sbMessage (type : Nat) (payload : List Byte) : List Byte :=
  BitVec.ofNat 8 type :: BitVec.ofNat 8 payload.length :: (payload ++ toBytes (sbCrc type payload).toNat 2)

/-- The payload of a TIME_ADV (R397). -/
def TimeAdv.bytes (a : TimeAdv) : List Byte :=
  [BitVec.ofNat 8 (a.role.toNat + 2 * a.conflict.toNat + 4 * a.via.toNat)] ++ toBytes a.master.toNat 2 ++ [a.steps]

/-- The payload of a PARAM (R388), in the order of the rule (log 185). -/
def ParamMsg.bytes (x : ParamMsg) : List Byte :=
  toBytes x.node.toNat 2 ++ [x.package, x.rank] ++ toBytes x.version.toNat 3 ++
    [BitVec.ofNat 8 (x.longReach.toNat + 2 * x.xingClass0.toNat)] ++ x.adv.bytes

/-- The payload of a TRAIN: step and lane map (log 185). -/
def trainBytes (step : Nat) (map : List Byte) : List Byte := BitVec.ofNat 8 step :: map

/-- The payload of a TS_VALUES: t2 and t3, FTIME80 each. -/
def tsBytes (t2 t3 : Nat) : List Byte := toBytes t2 10 ++ toBytes t3 10

end Sys2Proof
end

