-- ==== Sys2Proof/Machine/Fp.lean ====
section
/-! DEFINITION. IEEE 754 arithmetic of the engines: sums in fp32, fp64 and bf16 (R332, R338), minimumNumber and
maximumNumber (R338). A value is its code; a format is its exponent and fraction widths. -/

namespace Sys2Proof

structure FpFmt where
  e : Nat
  f : Nat
deriving DecidableEq, Repr

def fp32 : FpFmt := ⟨8, 23⟩
def fp64 : FpFmt := ⟨11, 52⟩
def bf16 : FpFmt := ⟨8, 7⟩

namespace FpFmt

def exp (t : FpFmt) (x : Nat) : Nat := x / 2 ^ t.f % 2 ^ t.e
def frac (t : FpFmt) (x : Nat) : Nat := x % 2 ^ t.f
def neg (t : FpFmt) (x : Nat) : Bool := x / 2 ^ (t.e + t.f) % 2 == 1
def top (t : FpFmt) : Nat := 2 ^ t.e - 1
def isNan (t : FpFmt) (x : Nat) : Bool := t.exp x == t.top && t.frac x != 0
def isInf (t : FpFmt) (x : Nat) : Bool := t.exp x == t.top && t.frac x == 0
def inf (t : FpFmt) (neg : Bool) : Nat := neg.toNat * 2 ^ (t.e + t.f) + t.top * 2 ^ t.f

/-- The value of a finite number, in units of the smallest subnormal. -/
def units (t : FpFmt) (x : Nat) : Int :=
  let m : Nat := if t.exp x = 0 then t.frac x else (t.frac x + 2 ^ t.f) * 2 ^ (t.exp x - 1)
  if t.neg x then -(m : Int) else m

/-- Round a number of units to the nearest code, ties to even; beyond the largest finite number, infinity. -/
def roundMag (t : FpFmt) (n : Nat) : Nat :=
  if n < 2 ^ (t.f + 1) then n
  else
    let k := n.log2 - t.f
    let q := n / 2 ^ k
    let r := n % 2 ^ k
    let q := if 2 * r > 2 ^ k || (2 * r = 2 ^ k && q % 2 = 1) then q + 1 else q
    min (k * 2 ^ t.f + q) (t.top * 2 ^ t.f)

/-- The sum, rounded to nearest even with subnormals kept; nothing when the result is a NaN. -/
def add (t : FpFmt) (a b : Nat) : Option Nat :=
  if t.isNan a || t.isNan b then none
  else if t.isInf a && t.isInf b then (if t.neg a == t.neg b then some a else none)
  else if t.isInf a then some a
  else if t.isInf b then some b
  else
    let s := t.units a + t.units b
    let neg := s < 0 || (s = 0 && t.neg a && t.neg b)
    some (neg.toNat * 2 ^ (t.e + t.f) + t.roundMag s.natAbs)

/-- An order on numbers that are no NaN; -0 is below +0. -/
def rank (t : FpFmt) (x : Nat) : Int :=
  let m : Nat := x % 2 ^ (t.e + t.f)
  if t.neg x then -(m : Int) - 1 else m

/-- minimumNumber, or maximumNumber; nothing when both are NaN. -/
def pick (t : FpFmt) (max : Bool) (a b : Nat) : Option Nat :=
  if t.isNan a then (if t.isNan b then none else some b)
  else if t.isNan b then some a
  else if max then (if t.rank a < t.rank b then some b else some a)
  else (if t.rank b < t.rank a then some b else some a)

end FpFmt

/-- An fp32 number rounded to bf16, nearest even; the number is no NaN. -/
def roundBf16 (x : Nat) : Nat := (x + 0x7FFF + x / 65536 % 2) / 65536

/-- The canonical NaN that AT_FADD stores (R332). -/
def canonNan (t : FpFmt) : Nat := t.top * 2 ^ t.f + 2 ^ (t.f - 1)

/-- A NaN of a reduction lane: sign and payload are free values (log 7). -/
def freeNanOf (t : FpFmt) (n : Nat) : Nat :=
  let x := (Config.freeNan n).toNat
  (x / 2 ^ 31) * 2 ^ (t.e + t.f) + canonNan t ||| x % 2 ^ (t.f - 1)

end Sys2Proof
end

