-- ==== Sys2Proof/Machine/Layout.lean ====
section
/-! DEFINITION. What follows from the generated description alone: which parts exist, where they sit, their numbers. -/

namespace Sys2Proof

/-- The router numbers of the instance, r = 16 × Y + X. -/
def Gen.routers (g : Gen) : List Nat :=
  (List.range g.dimY).flatMap fun y => (List.range g.dimX).map fun x => 16 * y + x

def Gen.hasRouter (g : Gen) (r : Nat) : Bool := r % 16 < g.dimX && r / 16 < g.dimY

def Gen.ni? (g : Gen) (l : Nat) : Option GenNi := g.nis.find? fun n => n.loc == l

def Gen.hasNi (g : Gen) (l : Nat) : Bool := (g.ni? l).isSome

/-- KIND of a local ID (R23): 0 Shuttle, 1 initiator, 2 target, 3 combined. -/
def Gen.kind (g : Gen) (l : Nat) : Nat := ((g.ni? l).map (·.kind)).getD 0

def Gen.niDom (g : Gen) (l : Nat) : Nat := ((g.ni? l).map (·.dom)).getD 0

/-- An initiator or combined NI: it has tags, virtual ports and a guard. -/
def Gen.isInit (g : Gen) (l : Nat) : Bool := g.kind l == 1 || g.kind l == 3

/-- Router of NI l. -/
def Gen.niRouter (g : Gen) (l : Nat) : Nat := ((g.ni? l).map fun n => 16 * n.y + n.x).getD 0

/-- Router port of NI l. -/
def Gen.niPort (g : Gen) (l : Nat) : Nat := ((g.ni? l).map (·.port)).getD 4

/-- The NI on L port `p` of router r. -/
def Gen.niAt (g : Gen) (r p : Nat) : Option Nat :=
  (g.nis.find? fun n => 16 * n.y + n.x == r && n.port == p).map (·.loc)

def Gen.port? (g : Gen) (p : Nat) : Option GenPort := g.ports.find? fun q => q.p == p

def Gen.hasPort (g : Gen) (p : Nat) : Bool := (g.port? p).isSome

def Gen.phy (g : Gen) (p : Nat) : Nat := ((g.port? p).map (·.phy)).getD 0

/-- Router of channel c of port p (R16). -/
def Gen.zRouter (g : Gen) (p c : Nat) : Nat := ((g.port? p).bind fun q => q.zrouters[c]?).getD 0

/-- The port and channel on the Z port of router r. -/
def Gen.zAt (g : Gen) (r : Nat) : Option (Nat × Nat) :=
  g.ports.findSome? fun q => (q.zrouters.findIdx? (· == r)).map fun c => (q.p, c)

def Gen.dom? (g : Gen) (d : Nat) : Option GenDom := g.doms.find? fun x => x.d == d

def Gen.hasDom (g : Gen) (d : Nat) : Bool := (g.dom? d).isSome

def Gen.domKind (g : Gen) (d : Nat) : Nat := ((g.dom? d).map (·.kind)).getD 0

/-- Clock region of router r. -/
def Gen.region (g : Gen) (r : Nat) : Nat := g.regions.getD r 1

/-- The LA_PORT codes of the ports router r has (R15): torus ports where the ring has more than one router, L ports with
an NI, Z with a flit channel. -/
def Gen.portsOf (g : Gen) (r : Nat) : List Nat :=
  (if g.dimY > 1 then [0, 1] else []) ++ (if g.dimX > 1 then [2, 3] else []) ++
  ([4, 5].filter fun p => (g.niAt r p).isSome) ++ (if (g.zAt r).isSome then [6] else [])

def Gen.hasRouterPort (g : Gen) (r p : Nat) : Bool := g.hasRouter r && (g.portsOf r).contains p

/-- Number of engines of the instance (R297). -/
def Gen.engineCount (g : Gen) : Nat := (g.nis.map (·.engines)).sum

def Gen.hasEngine (g : Gen) (i : Nat) : Bool := i < g.engineCount

/-- Host NI and slot of engine i: ascending local ID, then ascending slot (R297). -/
def Gen.engHosts (g : Gen) : List (Nat × Nat) :=
  (List.range 127).flatMap fun l => (List.range (((g.ni? l).map (·.engines)).getD 0)).map fun s => (l, s)

def Gen.engHost (g : Gen) (i : Nat) : Nat × Nat := g.engHosts.getD i (0, 0)

/-- Instance index of the engine in a slot of NI l. -/
def Gen.engAt (g : Gen) (l slot : Nat) : Option Nat := g.engHosts.findIdx? (· == (l, slot))

def Gen.engines (g : Gen) (l : Nat) : Nat := ((g.ni? l).map (·.engines)).getD 0

/-- Router the torus port p of router r leads to (R91). -/
def Gen.neighbour (g : Gen) (r p : Nat) : Nat :=
  let x := r % 16
  let y := r / 16
  if p = 0 then 16 * ((y + 1) % g.dimY) + x
  else if p = 1 then 16 * ((y + g.dimY - 1) % g.dimY) + x
  else if p = 2 then 16 * y + (x + 1) % g.dimX
  else 16 * y + (x + g.dimX - 1) % g.dimX

/-- The port at the far end of a torus link: N meets S, E meets W. -/
def facing (p : Nat) : Nat := if p = 0 then 1 else if p = 1 then 0 else if p = 2 then 3 else if p = 3 then 2 else p

/-- Whether the link out of port p of router r is the dateline of its ring (R92). -/
def Gen.isDateline (g : Gen) (r p : Nat) : Bool :=
  if p = 0 then r / 16 + 1 == g.dimY
  else if p = 1 then r / 16 == 0
  else if p = 2 then r % 16 + 1 == g.dimX
  else if p = 3 then r % 16 == 0
  else false

/-- The output port at router `at_` toward router t and port tp (R102). -/
def outPort (g : Gen) (at_ t tp : Nat) : Nat :=
  let dx := (t % 16 + g.dimX - at_ % 16) % g.dimX
  let dy := (t / 16 + g.dimY - at_ / 16) % g.dimY
  if dx ≠ 0 then (if dx ≤ g.dimX / 2 then 2 else 3)
  else if dy ≠ 0 then (if dy ≤ g.dimY / 2 then 0 else 1)
  else tp

/-- Routers on the route from router r to a target, r included. -/
def routeFrom (g : Gen) (r t tp : Nat) : Nat → List Nat
  | 0 => [r]
  | fuel + 1 =>
    let o := outPort g r t tp
    if o ≤ 3 && r ≠ t then r :: routeFrom g (g.neighbour r o) t tp fuel else [r]

/-! ### Distance from the wire limits (R30-R32) -/

def absDiff (a b : Nat) : Nat := (a - b) + (b - a)

/-- Manhattan distance of two routers, in µm. -/
def Gen.dist (g : Gen) (a b : Nat) : Nat :=
  let p := g.place.getD a (0, 0)
  let q := g.place.getD b (0, 0)
  absDiff p.1 q.1 + absDiff p.2 q.2

/-- Routers and long links of the route between two routers: h and l of R28. -/
def Gen.hops (g : Gen) (a b : Nat) : Nat × Nat :=
  let rs := routeFrom g a b 4 31
  (rs.length, (rs.filter fun r => g.longLinks.contains (r * 8 + outPort g r b 4)).length)

/-- Ratio of router-path latency to wire delay of a pair, in 1/256, rounded up: (h + l) × 500 ps against the wire's. -/
def Gen.delayRatio (g : Gen) (a b : Nat) : Nat :=
  let (h, l) := g.hops a b
  ceilDiv ((h + l) * 500 * 1000 * 256) (g.dist a b * g.wireDelay)

/-- Ratio of router-path energy to wire energy of a pair, in 1/256, rounded up: h × 30 pJ over 576 bits against the wire's. -/
def Gen.energyRatio (g : Gen) (a b : Nat) : Nat :=
  let (h, _) := g.hops a b
  ceilDiv (h * 30000 * 1000 * 256) (576 * (g.dist a b * g.wireEnergy))

/-- The qualifying pairs: routers of two NIs at least 8 mm apart (R31). -/
def Gen.farPairs (g : Gen) : List (Nat × Nat) :=
  let rs := g.nis.map fun n => 16 * n.y + n.x
  (rs.flatMap fun a => rs.map fun b => (a, b)).filter fun (a, b) => 8000 ≤ g.dist a b

/-- WORST_DELAY_RATIO and WORST_ENERGY_RATIO (R32); Jetrizor emits no instance beyond 358 and 563 (R31), so the bounds cut
nothing off. -/
def Gen.worstDelay (g : Gen) : Nat := min 358 ((g.farPairs.map fun (a, b) => g.delayRatio a b).foldl max 0)
def Gen.worstEnergy (g : Gen) : Nat := min 563 ((g.farPairs.map fun (a, b) => g.energyRatio a b).foldl max 0)

/-- The NI_MAP word of a local ID (fields of the NI_MAP table; R23). -/
def Gen.niMap (g : Gen) (l : Nat) : Nat :=
  match g.ni? l with
  | none => 0
  | some n => 2 ^ 31 + n.kind * 2 ^ 29 + n.x * 2 ^ 20 + n.y * 2 ^ 16 + (n.port - 4) * 2 ^ 15 + n.engines * 2 ^ 12 + n.dom

/-- NODE field of a fabric ID. -/
def fidNode (f : BitVec 16) : Nat := f.toNat / 128

/-- LOCAL field of a fabric ID. -/
def fidLocal (f : BitVec 16) : Nat := f.toNat % 128

/-- The fabric ID of a node's local ID. -/
def mkFid (node loc : Nat) : BitVec 16 := BitVec.ofNat 16 (node * 128 + loc)

end Sys2Proof
end

