-- ==== Sys2Proof/Machine/State.lean ====
section
/-! DEFINITION. Everything the spec gives one instance to remember, as plain data, and its value right after reset.

Every dictionary object has one home: the register file `Mach.regs`, under index * 256 + subindex. What the units hold
beside their objects (buffers, queues, tables, flow state, modes) stands in the structures below. -/

namespace Sys2Proof.Machine

open Sys2Proof

/-- Why a command stops the model with a fault: no command does. The block answers errors by log events, counters,
completions and MG_STATUS, all of them state; a command that names a part the instance was not generated with is
OBJECT_ABSENT where it is a dictionary write (R5) and an event that cannot come otherwise (log 10). -/
inductive Fault where
deriving DecidableEq, Repr

/-- Why the model has no meaning for a command. -/
inductive Refusal where
  /-- Raised by an arm of `exec` for a row that has no meaning yet. SAFE. -/
  | notModelled (mnemonic : String)
  /-- Raised by an arriving-packet row whose packet does not carry the row's CMD: the operands do not spell the command
  (WellFormed.lean). SAFE: the row of the packet's own CMD has the effect. -/
  | illFormed
deriving DecidableEq, Repr

/-- The states of a function (R474 text): 0 RUNNING, 1 STOPPING, 2 STOPPED, 3 STARTING. -/
inductive FState where
  | running | stopping | stopped | starting
deriving DecidableEq, Repr

/-- hy_ep_state (R238): 0 CLOSED, 1 OPENING, 2 OPEN, 3 AGENT_DOWN. -/
inductive EpState where
  | closed | opening | opened | agentDown
deriving DecidableEq, Repr

/-- LINK_STATE (R386), codes 0 to 7. -/
inductive LinkState where
  | down | detect | laneTrain | param | mismatch | up | retrain | failed
deriving DecidableEq, Repr

/-- TIME_STATE (R156), codes 0 to 4. -/
inductive TimeState where
  | free | acquiring | locked | holdover | fault
deriving DecidableEq, Repr

/-- PRK_STATE (R188), codes 0 to 3. -/
inductive PrkState where
  | idle | armed | active | activeArmed
deriving DecidableEq, Repr

/-- PWR_STATE (R417), codes 0 to 5. -/
inductive PwrState where
  | p0 | p1 | p2 | p3 | closing | waking
deriving DecidableEq, Repr

/-- VP_STATUS.STATE (R282), codes 0 to 4. -/
inductive VpState where
  | disabled | running | freezing | frozen | resetting
deriving DecidableEq, Repr

/-! ### Routers -/

/-- A packet in an input VC buffer (R111, R116). -/
structure BufPkt where
  pkt : Pkt
  /-- Flits of the whole packet, and flits received so far. -/
  need : Nat
  got : Nat
  /-- Outputs (LA_PORT codes) still without a copy, or code 8 alone while a STOPPED router holds the packet unrouted (R141),
  and outputs whose copy is still streaming. -/
  todo : List Nat
  live : List Nat
  /-- Flits whose credit has been given back. -/
  freed : Nat
  /-- The residue timer is running (R134). -/
  asked : Bool
deriving DecidableEq, Repr

/-- A packet in an output queue (R116) or a cyclic-mode slot (R112). -/
structure TxPkt where
  pkt : Pkt
  need : Nat
  /-- Flits present in the queue, and flits already on the link. -/
  got : Nat
  sent : Nat
  /-- The input port and VC it comes from, and its VC on the outgoing link. -/
  inp : Nat
  inVc : Nat
  vc : Nat
  /-- Held whole before it starts (R124, R125). -/
  saf : Bool
  /-- At a Z output: its credits came from the pool (R380). -/
  pool : Bool
deriving DecidableEq, Repr

/-- The state of one deficit-weighted round robin (R205): class pointer, fresh flags and deficits in bytes. -/
structure Dwrr where
  ptr : Nat
  fresh : List Bool
  deficit : List Nat
deriving DecidableEq, Repr

/-- One input port of a router. -/
structure InPort where
  vcs : Tab (List BufPkt)
  /-- LSEQ expected next (R37). -/
  lseq : Nat
  /-- VC of the packet in progress on the link and the FIDX expected next (R439). -/
  cur : Option Nat
  pos : Nat
  /-- VCs whose credit waits to go back, oldest first (R36). -/
  credits : List Nat
  /-- Link resets in the current Shuttle tick (R441), and whether the link waits to reopen (R440). -/
  resets : Nat
  resetting : Bool
deriving DecidableEq, Repr

/-- One output port of a router. -/
structure OutPort where
  q : List TxPkt
  /-- Downstream credits not reserved, per VC (R108). -/
  cr : Tab Nat
  lseq : Nat
  dw : Dwrr
  /-- Per class, the VC whose FIFO started last (R119, R207). -/
  rot : List Nat
  /-- CLASS_WEIGHT in force, and a set that has arrived and waits for the round boundary (R214). -/
  w : List Nat
  wNew : Option (List Nat)
  /-- The class whose selected packet waits under the gate (R210). -/
  sel : Option Nat
  /-- Longest free run of the active bank, capped at 5 (R212). -/
  maxRun : Nat
  noFitLogged : Bool
  /-- Class-0 flits that wait for the end of the packet on the link (R41, log 158). -/
  c0 : List Flit
  /-- Per class, the VC whose FIFO head is the candidate until it starts (R207). -/
  hold : List (Option Nat)
  /-- The link is dead (R441), and this end has passed through STOPPED and STARTING since. -/
  dead : Bool
  again : Bool
deriving DecidableEq, Repr

/-- A crossbar connection (R110): input, VC, output, plane and fc left. -/
structure Conn where
  inp : Nat
  vc : Nat
  out : Nat
  plane : Nat
  left : Nat
deriving DecidableEq, Repr

structure Router where
  fs : FState
  ins : Tab InPort
  outs : Tab OutPort
  conns : List Conn
  /-- Grant pointers per output and accept pointers per input (R109). -/
  gptr : Tab Nat
  aptr : Tab Nat
  /-- Fixed cyclic mode, its cause, a change that waits, its frame count and intermediate slots (R112-R115). -/
  cyclic : Bool
  cause : Nat
  want : Option Bool
  frame : Nat
  mids : Tab (TxPkt × Nat)
  /-- This router's own copies of ROUTE_PORT_ALIVE, PORT_AVOID and DT_ALPHA (R96, R118). -/
  alive : Nat
  avoid : Nat
  alpha : Nat
  /-- START is waiting: the routing function is starting this router (R475). -/
  allocFault : Bool
  /-- When the router last carried a flit (R420). -/
  used : Nat
deriving DecidableEq, Repr

/-! ### Network interfaces -/

/-- Who issued a non-posted request. -/
inductive Origin where
  | agent
  | engine (i c : Nat)
  | shuttle (id : Nat)
deriving DecidableEq, Repr

/-- A token bucket (R218): level in 1/65,536 millibyte, and the fabric time of its last refill. After a write the RATE before
it fills until `upto`, the next ns (R222). -/
structure Bucket where
  level : Nat
  last : Nat
  old : Nat
  upto : Nat
deriving DecidableEq, Repr

/-- The agent's request that a completion answers (R503, R505): the header as presented with its agent tag, fabric time at
I1, whether it was split, and whether it was selected for sampling. -/
structure ReqInfo where
  hdr : Hdr
  issue : Nat
  split : Bool
  sampled : Bool
deriving DecidableEq, Repr

/-- One tag table entry (R237, R252, R253). -/
structure TagEnt where
  org : Origin
  agentTag : BitVec 12
  /-- 0 whole, 1 lower part, 2 upper part of a split request; the lower part's tag. -/
  part : Nat
  low : Nat
  /-- The header as injected, and the agent's request as presented. -/
  hdr : Hdr
  req : Hdr
  /-- Fabric time at I1, and the deadline of the running NP_TIMEOUT interval. -/
  issue : Nat
  deadline : Nat
  fired : Bool
  orphan : Bool
  sampled : Bool
deriving DecidableEq, Repr

/-- The record of a split request (R251), by its lower part's tag. -/
structure SplitRec where
  read : Bool
  total : Nat
  lowStatus : Option Nat
  highStatus : Option Nat
  lowData : List Byte
  highData : List Byte
  req : ReqInfo
deriving DecidableEq, Repr

/-- A packet, or the two parts of a split request, in the held store (R248). -/
structure Held where
  org : Origin
  agentTag : BitVec 12
  parts : List Pkt
  tags : List Nat
  /-- The request as presented. -/
  req : Hdr
  /-- Fabric time of the header in I1. -/
  issue : Nat
deriving DecidableEq, Repr

/-- One entry of the source flow table (R237, R261, R265). -/
structure SrcFlow where
  key : FlowKey
  next : Nat
  closed : Bool
  lastInj : Nat
deriving DecidableEq, Repr

/-- One packet of the retransmit store (R262). -/
structure Retx where
  pkt : Pkt
  org : Origin
  posted : Bool
  tries : Nat
  /-- Deadline of the RETX_TIMEOUT interval that its last transmission started (R263). -/
  deadline : Nat
deriving DecidableEq, Repr

/-- One entry of the destination flow table (R237, R260). -/
structure DstFlow where
  key : FlowKey
  e : Nat
  /-- Deadline of the repeat of the outstanding NACK (R77). -/
  nack : Option Nat
  /-- The current acknowledgement run: posted packets delivered up to E and not yet acknowledged. -/
  run : Nat
  runDeadline : Nat
  /-- Runs ended by a non-posted packet (R260): first SEQ, count, deadline. -/
  ended : List (Nat × Nat × Nat)
  lastRx : Nat
deriving DecidableEq, Repr

/-- A packet in an ejection FIFO, whether its tail will carry hy_ep_e_drop (R254), and the request it completes. -/
structure EjPkt where
  pkt : Pkt
  drop : Bool
  req : Option ReqInfo
  /-- Its flits came over the ejection link, whose credits go back as they leave (R255). -/
  cred : Bool
deriving DecidableEq, Repr

/-- One class-0 destination flow (R182, R187). -/
structure C0Dst where
  e : Nat
  held : List Pkt
  /-- Deadline of the running hold timer. -/
  timer : Option Nat
  missA : Nat
  missB : Nat
  /-- The thread has been reported down since its count last was 0 (R187). -/
  downA : Bool
  downB : Bool
  /-- Good copies whose twin is awaited: SEQ, whether they came on thread B, and the end of TWIN_WINDOW. -/
  awaited : List (Nat × Bool × Nat)
deriving DecidableEq, Repr

/-- A virtual port beside its objects (R282, R286). -/
structure Vp where
  st : VpState
  bucket : Bucket
  deficit : Nat
  fresh : Bool
  /-- A WEIGHT that stays in force to the end of the scheduler's round after a write (R284); 0: the register's. -/
  oldWeight : Nat
deriving DecidableEq, Repr

/-- An initiator guard (R360-R362). -/
structure Guard where
  setA : Tab Nat
  setB : Tab Nat
  activeB : Bool
  locked : Nat
  /-- Swaps accepted and not yet in effect. -/
  swaps : Nat
  open_ : Bool
deriving DecidableEq, Repr

/-- The endpoint port of an NI. -/
structure Ep where
  st : EpState
  /-- hy_ep_agent_rdy. -/
  rdy : Bool
  /-- The wait of R269 is running. -/
  waiting : Bool
  /-- hy_ep_agent_rdy must fall and rise again before the port opens (R245). -/
  needFall : Bool
  quarantined : Bool
  /-- Ingress buffers per channel and the ingress credits the agent holds (R242). -/
  ingress : Tab (List Pkt)
  inCr : Tab Nat
  /-- Egress credits held per channel 0-4 (R243). -/
  egCr : Tab Nat
  /-- Ejection FIFOs per VN (R255) and the VN served last (R256). -/
  eject : Tab (List EjPkt)
  lastVn : Nat
  /-- Memory-port requests waiting for egress channel 0 (R327). -/
  mem : List Pkt
  /-- The slot clock until which the egress bus is occupied (R241, R256). -/
  busy : Nat
deriving DecidableEq, Repr

/-- Where a header comes from. -/
inductive From where
  | second | retx | internal | held | chan (ch : Nat) | engine (i : Nat) | mirror
deriving DecidableEq, Repr

/-- A header that may move into I1 with its packet or the two parts of its request. -/
structure Cand where
  frm : From
  parts : List Pkt
  org : Origin
deriving DecidableEq, Repr

/-- The head of a channel or of an engine's send queue that waits after step 3 of R247 with its step 2 resources, while the
held store is full (R248): its parts and its tags. -/
structure Kept where
  parts : List Pkt
  tags : List Nat
deriving DecidableEq, Repr

/-- The injection side of an NI. -/
structure Tx where
  dw : Dwrr
  w : List Nat
  wNew : Option (List Nat)
  /-- Per class, the channel served last (R246). -/
  rot : List Nat
  /-- The selected packet that waits under the gate, with its class (R210). -/
  sel : Option (Nat × Cand)
  /-- The slot clock until which the injection link is occupied (R211). -/
  busy : Nat
  maxRun : Nat
  noFitLogged : Bool
  /-- Credits for the router's input VCs and the LSEQ of the next flit (R68, R37). -/
  cr : Tab Nat
  lseq : Nat
  /-- Upper parts of split requests, numbered and waiting for their start (R250). -/
  second : List Pkt
  retxQ : List Pkt
  internal : List Pkt
  mirror : List Pkt
  mirrorCount : Nat
  held : List Held
  /-- Heads that keep step 2 resources (R248), by channel, or 8 + the engine's number. -/
  kept : Tab Kept
  /-- The virtual port pointer of the held store's scheduler (R286). -/
  vpPtr : Nat
  sampleCount : Nat
  niBucket : Bucket
  mBucket : Bucket
  /-- Class-0 thread queues by 2 * descriptor + thread, SEQ per descriptor, responses waiting (R174, R176). -/
  c0q : Tab Pkt
  c0seq : Tab Nat
  c0rsp : Tab (List Pkt)
deriving DecidableEq, Repr

/-- The tables of an NI (R237). -/
structure NiTab where
  tags : Tab TagEnt
  nextTag : Nat
  splits : Tab SplitRec
  src : List SrcFlow
  retx : List Retx
  dst : List DstFlow
  /-- Requests delivered to the agent and not answered; those whose answer has matched and waits for step 7 (R258). -/
  pending : List Hdr
  answered : List Hdr
  c0dst : Tab C0Dst
deriving DecidableEq, Repr

/-- The ejection link of an NI. -/
structure Rx where
  lseq : Nat
  cur : Option BufPkt
  credits : List Nat
  resets : Nat
  resetting : Bool
  dead : Bool
  again : Bool
  arrived : List Pkt
deriving DecidableEq, Repr

/-- The virtual port command in progress (R288, R293). -/
structure VpJob where
  op : Nat
  v : Nat
  /-- Nodes whose answer to the squash round is awaited, and whether one was unreached. -/
  nodes : List Nat
  unreached : Bool
deriving DecidableEq, Repr

structure Ni where
  fs : FState
  ep : Ep
  tx : Tx
  tab : NiTab
  rx : Rx
  vps : Tab Vp
  job : Option VpJob
  guard : Guard
  /-- Values of PV_LOCAL at the last ticks, newest first, and at the last reset or release (R451). -/
  pvTicks : List Nat
  pvBase : Nat
  /-- The first STOP_DISCARD of this stop has been logged (R266). -/
  stopLogged : Bool
  /-- When the NI last carried a flit (R420). -/
  used : Nat
deriving DecidableEq, Repr

/-! ### Stitch engines -/

/-- What a context waits for (CTX_STATUS codes 1 to 6, R349). -/
inductive CtxSt where
  | ready
  | waitEvent (ev n : Nat)
  /-- Waits for a memory operation slot, or at MWAIT. -/
  | waitMem
  /-- Waits for the data of its MRD or MAMO. -/
  | waitData
  | waitSend
  | waitColl
  | ending
deriving DecidableEq, Repr

/-- A context operation at the memory port (R327). -/
inductive MemOp where
  | wide (wd : Nat)
  | scratch (addr : Nat)
  | write
  /-- The MAMO of a context, into scalar register sd: pseudo-slot 8. -/
  | amo (sd : Nat)
  /-- An operation, a read or not, of a context that has been ended: its result is dropped (R347). -/
  | drop (read : Bool)
deriving DecidableEq, Repr

/-- An engine context (R302, R318, R321). -/
structure Ctx where
  pc : Nat
  s : List (BitVec 64)
  w : List Payload
  st : CtxSt
  entry : Nat
  ownerSrc : BitVec 16
  ownerVport : BitVec 10
  /-- The ENG_INVOKE to be completed. -/
  inv : Option Hdr
  /-- The armed compare value in NS, and the slot clock at which it was armed (R316). -/
  timer : Option (Nat × Nat)
  flag : Bool
  rq : List Pkt
  sends : Nat
  ops : Tab MemOp
  /-- Slots in issue order, and the outcomes that wait for an earlier operation to complete (R312). -/
  order : List Nat
  ans : Tab (Nat × List Byte)
  /-- STATUS of a failed MWR or MRDS, raised at the next instruction boundary (R329). -/
  memErr : Option Nat
  /-- Instructions issued since the last WAIT, YIELD, MWAIT or FINISH (R346). -/
  issued : Nat
  /-- WATCHDOG as it stood when this count began (R350). -/
  wd : Nat
  /-- Copies of the SENDL in progress that are already queued (R326). -/
  copies : Nat
  roots : List Nat
  /-- The slot clock at which the latency of its last instruction has passed (R304, R308). -/
  rdyAt : Nat
deriving DecidableEq, Repr

/-- A start in the invocation queue (R317, R318). -/
structure Start where
  entry : Nat
  w0 : Payload
  args : List (BitVec 64)
  len : Nat
  src : BitVec 16
  vport : BitVec 10
  inv : Option Hdr
  data : List Byte
deriving DecidableEq, Repr

/-- A collective descriptor beside its object (R337). -/
structure Coll where
  round : Nat
  /-- Contributions in ROUND and ROUND + 1. -/
  cnt0 : Nat
  cnt1 : Nat
  /-- CONTRIB instructions executed since START. -/
  local_ : Nat
  root : Option Nat
  /-- ROUND + 1 is to be abandoned once current (R342). -/
  abandonNext : Bool
deriving DecidableEq, Repr

/-- One operation of an atomic path entry: a request to be answered, or a MAMO of context c into register sd. -/
structure AtOp where
  hdr : Hdr
  ctx : Option (Nat × Nat)
  cmd : Nat
  size : Nat
  a : Nat
  b : Nat
  old : Nat
deriving DecidableEq, Repr

/-- An atomic path entry (R333, R334): 0 waiting, 1 locked and reading, 2 writing. -/
structure AtEnt where
  block : Nat
  /-- Arrival number among the entries of the path. -/
  ord : Nat
  phase : Nat
  ops : List AtOp
deriving DecidableEq, Repr

/-- A packet in an engine's send queue (R323). -/
structure SendEnt where
  ctx : Nat
  pkt : Pkt
  np : Bool
deriving DecidableEq, Repr

structure Engine where
  fs : FState
  scratch : List Host.Cell
  /-- 64-bit words that are poisoned, by word number (R305). -/
  poisoned : List Nat
  imem : List Host.Cell
  /-- Instructions with an uncorrectable error (R346). -/
  imemBad : List Nat
  ctxs : Tab Ctx
  /-- The context that issued last, where the rotation stands (R304). -/
  lastCtx : Nat
  /-- The slot clock from which the next instruction may issue (R304). -/
  free : Nat
  ev : Tab Nat
  evSat : Bool
  invQ : List Start
  coll : Tab Coll
  /-- SR 7: descriptors whose last result was abandoned. -/
  aband : Nat
  sendQ : List SendEnt
  atom : Tab AtEnt
  /-- PEN since the engine last passed through STARTING; before that the default number (R298, R350). -/
  pen : Option Nat
deriving DecidableEq, Repr

/-! ### Ndesil ports -/

/-- One flit channel of a port, both directions (R380-R384). -/
structure Chan where
  /-- Flits from the Z output waiting for a frame, with their sending slot and pool flag; flits for replay, by LSEQ, oldest
  first. -/
  txq : List (Nat × Bool × WireFlit)
  replay : List (Nat × Bool × WireFlit)
  lseq : Nat
  /-- Credits of the sender: per VC and in the pool. -/
  cr : Tab Nat
  pool : Nat
  /-- A replay has been asked for: resend from here, and whether its first frame has still to leave (R383). -/
  resend : Option (Nat × Bool)
  /-- Receiver: flits held, with the pool flag; LSEQ expected; discarding after a NAK; credits owed. -/
  rxbuf : List (Bool × WireFlit)
  e : Nat
  discarding : Bool
  ackDue : Bool
  nakDue : Bool
  owed : Tab Nat
  owedPool : Nat
  /-- Class-0 release queue: release slot and flit (R166). -/
  c0q : List (Nat × WireFlit)
  /-- Flits still to be released of the packet whose head has left (R384), by VC, and flits to swallow. -/
  opened : Tab (Nat × Nat)
  swallow : Tab Nat
  /-- Consecutive NAKs with one ACK_LSEQ (R385). -/
  naks : Nat
  nakSeq : Nat
  /-- The time mark the next frame is to carry, a reply no sooner than this (R398). -/
  tsMark : Nat
  tsFrom : Nat
  /-- VCs whose oldest packet has been counted as held by the release stage (R378). -/
  heldVc : List Nat
deriving DecidableEq, Repr

structure Port where
  fs : FState
  link : LinkState
  chans : Tab Chan
  /-- Channels trained (LIVE_CHANNELS), and the bundles of a long-reach port that are up (R396). -/
  trained : Nat
  /-- What training found, trained once the link is UP; buffers and credits are kept when it comes up (R386, R389). -/
  found : Nat
  keep : Bool
  serdes : Nat
  sfNum : Nat
  mapEpoch : Nat
  adv : Option TimeAdv
  /-- The lane map of training: the lanes in error of each group, or the bundles (R374, R387). -/
  map : List (List Nat)
  /-- Sideband messages sent, with the time at which one that was dropped is repeated; the bytes of a long-reach port's sideband
  stream that have still to leave in SB_CHUNK (R397). -/
  sideband : List (Nat × List Byte)
  sbOut : List Byte
  retrainFails : Nat
  crcFails : Nat
  /-- A PARAM that came before this end reached PARAM, and the last one judged (R388). -/
  heard : Option ParamMsg
  peer : Option ParamMsg
  /-- The last shadow digest of the neighbour, and whether one has been asked of it (R192). -/
  digest : Option (BitVec 32)
  asked : Bool
  /-- Link power: state, and what each end has asked for (R431, R432). -/
  pwr : Nat
  ask : Nat
  farAsk : Nat
  exiting : Bool
deriving DecidableEq, Repr

/-! ### Domains, time, pricking, Shuttle -/

structure Domain where
  st : PwrState
  /-- The state CLOSING leads to (1 to 3), and on the way to a deeper one in WAKING (R421). -/
  goal : Nat
  req : Nat
  ack : Nat
  inReset : Bool
  dead : Bool
  /-- Pinned by a WAKE hold (R426), in µs from its waking; and a hint that waits for the entry to complete (R428). -/
  hold : Bool
  holdUs : Nat
  hinted : Bool
  /-- From when the idle time counts at the earliest: its last waking or CLOSE_ABORT (R425, R429). -/
  woke : Nat
  /-- Counter values taken before P3 (R496). -/
  saved : Tab Nat
  /-- Clock phase of the domain against the slot clock, in MHz units. -/
  phase : Nat
deriving DecidableEq, Repr

/-- Fabric time (R147-R160). `ft` counts 1/65,536 ns, 80 bits. -/
structure TimeSt where
  /-- The fc of the slot clock that have passed, in 1/65,536 ns: what timers run on. No correction of fabric time moves it. -/
  clk : Nat
  ft : Nat
  sc : Nat
  st : TimeState
  /-- The offset to be removed by slewing, in 1/65,536 ns, over how many fc, and how many have passed (R151). -/
  slew : Int
  slewLen : Nat
  slewDone : Nat
  /-- hy_tod latched and pending; time of the last used PPS edge (R150). -/
  tod : Option Nat
  lastPps : Option Nat
  present : Bool
  upstream : Option Nat
  conflict : Bool
  /-- t1 and t4 of the exchange in progress (R154). -/
  t1 : Option Nat
  t4 : Option Nat
  /-- Consecutive exchanges within 0.25 ns and beyond 0.5 ns (R156). -/
  good : Nat
  bad : Nat
  /-- t2 of an exchange this instance answers as upstream, by port (R398). -/
  reply : Tab Nat
  /-- Ports whose neighbour stopped completing exchanges (R157). -/
  deaf : List Nat
  /-- HOLDOVER_LIMIT as it stood at the last exchange (R202). -/
  holdLimit : Nat
deriving DecidableEq, Repr

/-- The pricking (R188-R198): the active bank of reservation entries and descriptors, by object key. -/
structure Prk where
  st : PrkState
  active : Tab Nat
  period : Nat
  /-- The bank and period armed for the activation, and its slot. -/
  armed : Tab Nat
  armedPeriod : Nat
  slot : Nat
  /-- STOP of the pricking function armed an empty bank (R198). -/
  stopping : Bool
  /-- An ARM waits for the neighbours' digests (R192). -/
  asking : Bool
deriving DecidableEq, Repr

/-- A management request that waits for acceptance (R461), of either path. -/
inductive ShReq where
  | inBand (p : Pkt)
  | outBand (q : MgReq)
deriving DecidableEq, Repr

/-- A broadcast waiting for its copies (R469). -/
structure Bcast where
  hdr : Hdr
  status : Nat
  waiting : List Nat
  ok : Nat
  fail : Nat
deriving DecidableEq, Repr

/-- A request the Shuttle itself has outstanding: a forwarded MG_REQ (R473), a copy of a broadcast to a node (R469), the
squash round of a virtual port of NI l (R293). -/
inductive Call where
  | forward (q : MgReq)
  | copy (b node : Nat)
  | squash (l node : Nat)
deriving DecidableEq, Repr

/-- The command CMD_STATUS reports as running (R475, R477): its subindex, FUNC_ID, and the groups still to be done. -/
structure Job where
  sub : Nat
  fid : Nat
  groups : List (List Nat)
  /-- RESULT so far: 0 DONE, 1 DRAIN_TIMEOUT, 2 START_REFUSED (R477). -/
  result : Nat
deriving DecidableEq, Repr

structure Shuttle where
  /-- hy_por_n. -/
  porN : Bool
  /-- Fabric time as hy_por_n rose, as step 4 began and as the current step began (R485). -/
  t0 : Nat
  t4 : Nat
  stepAt : Nat
  image : Tab Byte
  imageSeen : Bool
  halted : Bool
  job : Option Job
  host : Option Nat
  waitq : List ShReq
  /-- Ao cycle of the latest acceptance, counted from 1; 0 before any (R458). -/
  accepted : Nat
  calls : Tab Call
  bcast : Tab Bcast
  /-- Isolation of R448. -/
  isolated : Bool
  hoop : Option (Nat × Nat)
  /-- hy_lifecycle. -/
  lifecycle : BitVec 4
  /-- Wake hints not yet acted on: domain of the bridge, router behind it, DEST, VN, and when (R422, R423). -/
  hints : List (Nat × Nat × BitVec 16 × BitVec 3 × Nat)
  /-- IDLE_P1 to IDLE_P3 before each write of one, with its time: for counts that had started (R435). -/
  idleHist : List (Nat × List Nat)
  ticks : Nat
  /-- Table entries with an uncorrectable error not yet repaired (R446). -/
  badEntries : List TabErr
  /-- The instruction of the IEEE 1500 wrapper (R517); 0 WS_BYPASS. -/
  wrapper : Nat
  /-- Groups written ENABLE = 0 and not yet drained (R130). -/
  draining : List Nat
deriving DecidableEq, Repr

/-- What arrived at a log in one ao cycle (R454): the cycle, the two records as they stood before it, its records in the order
they apply, and its counts per severity. -/
structure LogCycle where
  cycle : Nat
  before : Nat × Nat
  recs : List Nat
  cnts : List Nat
deriving DecidableEq, Repr

/-- One log: what crosses into the always-on domain (R527), the record that waits and the running counts per severity, sent and
applied; and what arrived there in the latest ao cycle. -/
structure LogSt where
  waiting : Option Nat
  counts : List Nat
  applied : List Nat
  now : LogCycle
deriving DecidableEq, Repr

/-- A flit on the egress bus (R238): hy_ep_e_ch, ftype, fidx, drop, data and par. -/
structure EgressFlit where
  ch : BitVec 3
  ftype : BitVec 2
  fidx : BitVec 3
  drop : Bool
  data : Payload
  par : BitVec 8
deriving DecidableEq, Repr

/-- Something the block puts on its boundary. -/
inductive Out where
  /-- The flits of a packet on the egress bus of NI l, in consecutive fc (R241). -/
  | egress (l : Nat) (bus : List EgressFlit)
  /-- Ingress credits returned on a channel. -/
  | credit (l ch n : Nat)
  /-- A packet handed by NI l to its router. -/
  | inject (l : Nat) (p : Pkt)
  /-- The bytes of a vendor message over MCTP (R472). -/
  | mctp (bytes : List Byte)
  /-- The answer to a dictionary access made by a command row: MG_STATUS. -/
  | status (mgStatus : Nat)
  | mctpVendor (iana : Nat)
  /-- A superframe of a short-reach port (R372): SF_HDR, its frames, and the words of its lanes (R373, R393). -/
  | superframe (p : Nat) (hdr : BitVec 64) (frames : List Frame) (lanes : List Nat)
  /-- The frame of a long-reach bundle and its eighths (R395). -/
  | bundle (p b : Nat) (f : Frame) (beats : List LrBeat)
  /-- The bytes of a message on the sideband bumps (R397). -/
  | sideband (p : Nat) (bytes : List Byte)
  /-- hy_pwr_req of a domain. -/
  | pwrReq (d code : Nat)
  /-- A report of the wrapper (R517): memory number or address, and value. -/
  | test (what value : Nat)
deriving DecidableEq, Repr

/-- A timer of the instance that a row of its own ends (log 5). -/
inductive Timer where
  /-- The residue timer of the packet at the head of input VC `v` at port `p` of router `r` (R134). -/
  | residue (r p v : Nat)
  /-- The drain of a STOPPING router, NI or engine, by FUNC_ID (R140, R267, R345). -/
  | drain (fid : Nat)
  /-- DRAINED of group n (R130). -/
  | group (n : Nat)
  /-- The VN M packet at the head of NI l's ejection FIFO (R73). -/
  | mEject (l : Nat)
  /-- The wait of NI l before it opens (R269). -/
  | niOpen (l : Nat)
  /-- FREEZE at NI l (R289) and its squash round (R293). -/
  | vpFreeze (l : Nat)
  | squash (l : Nat)
  /-- The round, odd or even, of collective descriptor d of engine i (R342). -/
  | coll (i d : Nat) (odd : Bool)
  /-- The last used PPS edge (R152), the last completed exchange (R156), the holdover (R156), the last conflict (R158). -/
  | pps
  | exchange
  | holdover
  | conflict
  /-- The next exchange, and the answer to the one in progress (R154, R398). -/
  | tsStart
  | tsAnswer
  /-- At port p: the NAK of channel c (R382), DETECT and MISMATCH (R386), the idle time of a link toward a power state and its
  exit from one (R431, R432). -/
  | nak (p c : Nat)
  | detect (p : Nat)
  | mismatch (p : Nat)
  | linkIdle (p code : Nat)
  | linkExit (p : Nat)
  /-- Of domain d: its exit latency (R417), CLOSE_TIMEOUT (R429), PWR_ACK_TIMEOUT (R416), a WAKE hold (R426), and the count of
  ao cycles without a heartbeat while it is in reset (R411). -/
  | wake (d : Nat)
  | close (d : Nat)
  | ack (d : Nat)
  | wakeHold (d : Nat)
  | dead (d : Nat)
  /-- The answer to a forwarded MG_REQ (R473) and to a broadcast's copies (R469); STORE (R481); the image of step 3 (R485). -/
  | forward (id : Nat)
  | bcast (b : Nat)
  | store
  | image
  /-- The reopening of the on-die link whose receiving end has number k (R440). -/
  | linkReset (k : Nat)
  /-- The next measurement of domain d's aging monitor (R513). -/
  | age (d : Nat)
deriving DecidableEq, Repr

/-- The whole instance but for its generated description and its queue of commands. -/
structure Mach where
  /-- Every dictionary object that has been written or counted; see `Mach.reg`. -/
  regs : Tab Nat
  /-- RWS values in force where they differ from the accepted ones (R520). -/
  inForce : Tab Nat
  time : TimeSt
  sh : Shuttle
  routers : Tab Router
  nis : Tab Ni
  engines : Tab Engine
  ports : Tab Port
  domains : Tab Domain
  prk : Prk
  logs : Tab LogSt
  /-- What hardware has last updated of an object, by key (R13, R14): in which ao cycle, which bits, and their value. -/
  hw : Tab (Nat × Nat × Nat)
  /-- Running timers with their deadlines on the slot clock. -/
  timers : List (Timer × Nat)
  /-- Words on the on-die links, by receiving end (see `linkKey`), oldest first. -/
  wires : Tab (List WireFlit)
  /-- The model's own counter that free values are applied to. -/
  fresh : Nat
  /-- Everything put on the boundary so far, oldest first. -/
  out : List Out
deriving DecidableEq, Repr

structure State where
  gen : Gen
  m : Mach
  /-- Commands waiting, first in, first out. -/
  pending : List Instr
deriving DecidableEq, Repr

/-! ### Reset -/

def Dwrr.reset : Dwrr := ⟨1, [true, true, true], [0, 0, 0]⟩

def Bucket.reset : Bucket := ⟨0, 0, 0, 0⟩

/-- Five credits for each of VCs 0-11 (R68). -/
def fullCredits : Tab Nat := (List.range 12).map fun v => (v, 5)

def InPort.reset : InPort := ⟨[], 0, none, 0, [], 0, false⟩

def OutPort.reset : OutPort :=
  { q := [], cr := fullCredits, lseq := 0, dw := Dwrr.reset, rot := [0, 0, 0], w := [64, 16, 4], wNew := none,
    sel := none, maxRun := 5, noFitLogged := false, c0 := [], hold := [none, none, none], dead := false, again := false }

/-- A router after reset: STOPPED, in cyclic mode with cause start-up (R112, R485). -/
def Router.reset (g : Gen) (r : Nat) : Router :=
  { fs := .stopped
    ins := (g.portsOf r).map fun p => (p, InPort.reset)
    outs := (g.portsOf r).map fun p => (p, OutPort.reset)
    conns := [], gptr := [], aptr := [], cyclic := true, cause := 0, want := none, frame := 0, mids := []
    alive := 0, avoid := 0, alpha := 3, allocFault := false, used := 0 }

def Guard.reset : Guard := ⟨[], [], false, 0, 0, false⟩

def Ep.reset : Ep :=
  { st := .closed, rdy := false, waiting := false, needFall := false, quarantined := false, ingress := [], inCr := [],
    egCr := [], eject := [], lastVn := 4, mem := [], busy := 0 }

def Tx.reset : Tx :=
  { dw := Dwrr.reset, w := [64, 16, 4], wNew := none, rot := [0, 0, 0], sel := none, busy := 0, maxRun := 5, noFitLogged := false,
    cr := fullCredits, lseq := 0, second := [], retxQ := [], internal := [], mirror := [], mirrorCount := 0, held := [], kept := [], vpPtr := 0,
    sampleCount := 0, niBucket := Bucket.reset, mBucket := Bucket.reset, c0q := [], c0seq := [], c0rsp := [] }

def NiTab.reset : NiTab :=
  { tags := [], nextTag := 0, splits := [], src := [], retx := [], dst := [], pending := [], answered := [], c0dst := [] }

def Rx.reset : Rx := ⟨0, none, [], 0, false, false, false, []⟩

/-- An NI after reset: STOPPED, its port CLOSED, nothing held (R237, R369). -/
def Ni.reset : Ni :=
  { fs := .stopped, ep := Ep.reset, tx := Tx.reset, tab := NiTab.reset, rx := Rx.reset, vps := [], job := none,
    guard := Guard.reset, pvTicks := [], pvBase := 0, stopLogged := false, used := 0 }

/-- An engine after reset: STOPPED, stores all zero (R343, R349). -/
def Engine.reset : Engine :=
  { fs := .stopped, scratch := [], poisoned := [], imem := [], imemBad := [], ctxs := [], lastCtx := 7, free := 0, ev := [],
    evSat := false, invQ := [], coll := [], aband := 0, sendQ := [], atom := [], pen := none }

/-- A channel as it comes up (R380). -/
def Chan.reset : Chan :=
  { txq := [], replay := [], lseq := 0, cr := fullCredits, pool := 196, resend := none, rxbuf := [],
    e := 0, discarding := false, ackDue := false, nakDue := false, owed := [], owedPool := 0, c0q := [], opened := [],
    swallow := [], naks := 0, nakSeq := 0, tsMark := 0, tsFrom := 0, heldVc := [] }

def Port.reset : Port :=
  { fs := .stopped, link := .down, chans := (List.range 6).map fun c => (c, Chan.reset), trained := 0, found := 0, keep := false, serdes := 0,
    sfNum := 0, mapEpoch := 0, adv := none, map := [], sideband := [], sbOut := [], retrainFails := 0, crcFails := 0, heard := none, peer := none,
    digest := none, asked := false, pwr := 0, ask := 0, farAsk := 0, exiting := false }

/-- Every domain reads P0 after reset (PWR_STATE default 0, R434). -/
def Domain.reset : Domain :=
  { st := .p0, goal := 0, req := 0, ack := 0, inReset := false, dead := false, hold := false, holdUs := 0, hinted := false,
    woke := 0, saved := [], phase := 0 }

def TimeSt.reset : TimeSt :=
  { clk := 0, ft := 0, sc := 0, st := .free, slew := 0, slewLen := 0, slewDone := 0, tod := none, lastPps := none, present := false, upstream := none,
    conflict := false, t1 := none, t4 := none, good := 0, bad := 0, reply := [], deaf := [], holdLimit := 10000 }

def Prk.reset : Prk := ⟨.idle, [], 0, [], 0, 0, false, false⟩

def Shuttle.reset : Shuttle :=
  { porN := false, t0 := 0, t4 := 0, stepAt := 0, image := [], imageSeen := false, halted := false, job := none,
    host := none, waitq := [], accepted := 0, calls := [], bcast := [], isolated := false, hoop := none, lifecycle := 0,
    hints := [], idleHist := [], ticks := 0, badEntries := [], wrapper := 0, draining := [] }

/-- The instance right after reset, whatever it was generated with. -/
def Mach.resetOf (g : Gen) : Mach :=
  { regs := [], inForce := [], time := TimeSt.reset, sh := Shuttle.reset
    routers := g.routers.map fun r => (r, Router.reset g r)
    nis := g.nis.map fun n => (n.loc, Ni.reset)
    engines := (List.range g.engineCount).map fun i => (i, Engine.reset)
    ports := g.ports.map fun p => (p.p, Port.reset)
    domains := g.doms.map fun d => (d.d, Domain.reset)
    prk := Prk.reset, logs := [], hw := [], timers := [], wires := [], fresh := 0, out := [] }

def State.resetOf (g : Gen) : State := ⟨g, Mach.resetOf g, []⟩

/-- The machine right after reset: the reference instance with hy_por_n low and an empty queue. -/
def State.reset : State := State.resetOf Config.refGen

end Sys2Proof.Machine
end

