-- ==== Sys2Proof/Machine/Objects.lean ====
section
/-! DEFINITION. The parameter dictionary as tables: every object's type, access code, default and range (the object
tables of every chapter), its reserved bits (R10), its owning function (R474, R521) and its descriptor (R462). Objects
are named by their key, index * 256 + subindex. -/

namespace Sys2Proof.Machine

open Sys2Proof

/-- Types (chapter 13), with the size of a DOMAIN. -/
inductive Ty where
  | bool | u8 | u16 | u32 | u64 | i32 | ftime | domain (bytes : Nat)
deriving DecidableEq, Repr

/-- Access codes. -/
inductive Acc where
  | ro | rw | rws | wo | const | w1c
deriving DecidableEq, Repr

/-- One row of an object table. `mask` marks the bits that are not reserved; `lo`-`hi` is the stated range. -/
structure Obj where
  ty : Ty
  acc : Acc
  dflt : Nat
  lo : Nat
  hi : Nat
  mask : Nat
deriving DecidableEq, Repr

/-- Who must be STOPPED for an RWS write, and whose STARTING puts it into force (R521). -/
inductive Owner where
  /-- A function, by FUNC_ID. -/
  | func (fid : Nat)
  /-- Every NI and Ndesil port (R19). -/
  | instance_
  | group (g : Nat)
  /-- Every engine (R350). -/
  | engines
  /-- The routers and NIs of a domain (R435). -/
  | domain (d : Nat)
deriving DecidableEq, Repr

def Ty.size : Ty → Nat
  | .bool | .u8 => 1
  | .u16 => 2
  | .u32 | .i32 => 4
  | .u64 => 8
  | .ftime => 10
  | .domain n => n

def Ty.code : Ty → Nat
  | .bool => 0
  | .u8 => 1
  | .u16 => 2
  | .u32 => 3
  | .u64 => 4
  | .i32 => 5
  | .ftime => 6
  | .domain _ => 8

def Acc.code : Acc → Nat
  | .ro => 0
  | .rw => 1
  | .rws => 2
  | .wo => 3
  | .const => 4
  | .w1c => 5

/-- The largest value of a type. -/
def Ty.top (t : Ty) : Nat := if t = .bool then 1 else 256 ^ t.size - 1

def key (idx sub : Nat) : Nat := idx * 256 + sub

/-- A row with the whole range of its type and no reserved bit. -/
def Obj.plain (t : Ty) (a : Acc) (d : Nat) : Obj := ⟨t, a, d, 0, t.top, 256 ^ t.size - 1⟩

def ro (t : Ty) (d : Nat := 0) : Option Obj := some (.plain t .ro d)
def rw (t : Ty) (d : Nat) : Option Obj := some (.plain t .rw d)
def wo (t : Ty) : Option Obj := some (.plain t .wo 0)
def const (t : Ty) (d : Nat) : Option Obj := some (.plain t .const d)
/-- A row with a range. -/
def ranged (t : Ty) (a : Acc) (d lo hi : Nat) : Option Obj := some ⟨t, a, d, lo, hi, 256 ^ t.size - 1⟩
/-- A row whose layout has reserved bits. -/
def masked (t : Ty) (a : Acc) (d mask : Nat) : Option Obj := some ⟨t, a, d, 0, t.top, mask⟩

/-- The value of GEN_DIGEST (R492). -/
def genDigest (g : Gen) : Nat :=
  crc32c (toBytes g.dimX 1 ++ toBytes g.dimY 1 ++ toBytes g.nis.length 1 ++ toBytes g.engineCount 1 ++
    toBytes g.ports.length 1 ++ toBytes g.doms.length 1 ++ toBytes g.wireDelay 2 ++ toBytes g.wireEnergy 2 ++
    toBytes g.worstDelay 2 ++ toBytes g.worstEnergy 2 ++ (List.range 127).flatMap fun l => toBytes (g.niMap l) 4)

/-- Mask of the bits [hi:lo]. -/
def bits (hi lo : Nat) : Nat := 2 ^ (hi + 1) - 2 ^ lo

/-! ### Tables, one function per index range -/

/-- 0x1000 to 0x1200: R3, R18, R492. -/
def objIdent (g : Gen) (idx sub : Nat) : Option Obj :=
  if idx = 0x1000 then
    match sub with
    | 2 => const .u32 0x00030200
    | 3 => const .u32 g.vendorIana
    | 4 => const .u32 (genDigest g)
    | _ => none
  else if idx = 0x1001 then
    match sub with
    | 1 => some (.plain .u16 .rws 0xFFFF)
    | 2 => some (.plain .u8 .rws 0xFF)
    | _ => none
  else if idx = 0x1010 then
    match sub with
    | 1 => const .u8 g.dimX
    | 2 => const .u8 g.dimY
    | 3 => const .u8 g.nis.length
    | 4 => const .u8 g.engineCount
    | 5 => const .u8 g.ports.length
    | 6 => const .u8 g.doms.length
    | 7 => const .u16 g.wireDelay
    | 8 => const .u16 g.wireEnergy
    | 9 => const .u16 g.worstDelay
    | 10 => const .u16 g.worstEnergy
    | _ => none
  else if idx = 0x1100 then
    match sub with
    | 1 | 2 => ro .u8
    | 3 => ro .u64 g.i3cPid
    | 4 | 5 => ro .u32
    | 6 => const .u16 1000
    | 7 => ranged .u16 .rw 10000 100 60000
    | 8 => ro .u16
    | _ => none
  else if idx = 0x1200 then
    match sub with
    | 1 => ro .u8 1
    | 2 | 3 | 4 => ro .u32
    | _ => none
  else none

/-- 0x2000 to 0x27FF: R93, R128, R129, R144. As generated, SAF_6 is 0b110 where there is a Z port (R124). -/
def objRouter (g : Gen) (idx sub : Nat) : Option Obj :=
  if idx = 0x2000 then
    match sub with
    | 1 => ranged .u8 .rw 3 0 6
    | 2 => ranged .u16 .rw 4000 500 60000
    | 3 => ranged .u16 .rw 100 10 10000
    | 4 => ro .u8
    | 5 => rw .u8 0
    | 6 => ranged .u8 .rws 0 0 15
    | _ => none
  else if idx = 0x2010 then (if 1 ≤ sub && sub ≤ 8 && g.hasPort (sub - 1) then ro .u8 else none)
  else if idx = 0x2100 || idx = 0x2101 then masked .u16 .rws 0 0xFF00
  else if 0x2200 ≤ idx && idx < 0x2300 then
    let r := idx - 0x2200
    if g.hasRouter r then
      match sub with
      | 1 => ro .u8 2
      | 2 => ro .u8 1
      | 4 => masked .u32 .rws (if (g.zAt r).isSome then 0x180000 else 0) (bits 20 0)
      | 5 => const .u8 ((g.portsOf r).map fun p => 2 ^ p).sum
      | 6 => const .u8 (g.region r)
      | _ => none
    else none
  else if 0x2300 ≤ idx && idx < 0x2304 then masked .u8 .rw 2 1
  else if 0x2400 ≤ idx && idx < 0x2800 then (if g.hasRouter sub then some (.plain .u8 .rws 0) else none)
  else none

/-- 0x3000 to 0x3FFE: R200, R233. -/
def objTime (g : Gen) (idx sub : Nat) : Option Obj :=
  if idx = 0x3000 then
    match sub with
    | 1 => ranged .u8 .rws 0 0 1
    | 2 => ro .u8
    | 3 => ro .ftime
    | 4 | 8 => ro .i32
    | 5 => ro .u8 0xFF
    | 6 => ranged .u32 .rw 10000 100 600000
    | 7 => ranged .u32 .rw 1000 100 1000000
    | 9 => ro .u8
    | 10 => ro .u32
    | _ => none
  else if idx = 0x3001 then (if 1 ≤ sub && g.hasPort (sub - 1) then rw .i32 0 else none)
  else if idx = 0x3002 then (if 1 ≤ sub && g.hasPort (sub - 1) then ro .u16 16 else none)
  else if idx = 0x3003 then
    (if 1 ≤ sub && g.hasPort (sub - 1) then some (.plain .bool .rws (if g.phy (sub - 1) = 2 then 0 else 1)) else none)
  else if idx = 0x3100 then
    match sub with
    | 1 => ro .u8
    | 2 => ranged .u16 .rw 1024 16 4096
    | 3 => ro .u16
    | 4 => rw .ftime 0
    | 5 => rw .bool 0
    | 6 => masked .u16 .w1c 0 0xF
    | 7 => ro .ftime
    | 8 => ro .u32
    | 9 => rw .bool 0
    | 11 => ranged .u8 .rw 4 1 255
    | _ => none
  else if idx = 0x3200 then
    match sub with
    | 1 => ranged .u8 .rw 64 1 255
    | 2 => ranged .u8 .rw 16 1 255
    | 3 => ranged .u8 .rw 4 1 255
    | _ => none
  else if 0x3400 ≤ idx && idx < 0x347F then
    (if g.hasNi (idx - 0x3400) && sub < 32 then masked (.domain 16) .rw 0 (bits 127 80) else none)
  else if 0x3500 ≤ idx && idx < 0x357F then
    (if g.hasNi (idx - 0x3500) && sub < 32 then masked (.domain 16) .rw 0 (2 ^ 127 + bits 125 123 + bits 119 80) else none)
  else if 0x3600 ≤ idx && idx < 0x367F then
    (if g.hasNi (idx - 0x3600) && 1 ≤ sub && sub ≤ 5 then ro .u64 else none)
  else if 0x3800 ≤ idx && idx ≤ 0x3FFE then
    (if g.hasRouterPort ((idx - 0x3800) / 8) ((idx - 0x3800) % 8) then rw .u32 0 else none)
  else none

/-- A target NI with engines, an initiator or a combined NI has NI_SHAPE and M_POLICE (R234). -/
def hasShapes (g : Gen) (l : Nat) : Bool := g.isInit l || (g.kind l == 2 && 1 ≤ g.engines l)

/-- General objects of NI l (R88, R233, R271, R295, R457). -/
def objNiGeneral (g : Gen) (l sub : Nat) : Option Obj :=
  if l = 0 || !g.hasNi l then none
  else match sub with
  | 0x01 => ro .u8 2
  | 0x02 => ro .u8
  | 0x03 => ro .u16
  | 0x04 => ranged .u16 .rws 4096 16 4096
  | 0x10 => ranged .u32 .rws 1000 100 100000
  | 0x11 => ranged .u32 .rw 100 10 10000
  | 0x12 => ranged .u16 .rw 2000 200 65000
  | 0x13 => ranged .u32 .rw 10000 100 1000000
  | 0x14 => ranged .u32 .rw 100 20 100000
  | 0x15 => ranged .u8 .rws 3 1 3
  | 0x16 => ranged .u16 .rw 40 10 10000
  | 0x17 => ro .u64
  | 0x20 | 0x21 => if hasShapes g l then rw .u32 0 else none
  | 0x22 => rw .u32 8
  | 0x23 => ro .u32
  | 0x24 => if hasShapes g l then ro .u64 else none
  | 0x30 => ro .u64
  | 0x31 => if g.isInit l then wo .u32 else none
  | 0x32 => if g.isInit l then ro .u32 else none
  | 0x33 => if g.isInit l then rw (.domain 256) 0 else none
  | 0x34 | 0x35 => if g.isInit l then ro .u64 else none
  | 0x40 | 0x41 | 0x44 => ro .u64
  | 0x42 => ro .bool
  | 0x43 => wo .u8
  | _ => none

/-- 0x4000 to 0x4DFF (R270): the NI and virtual port of an index in the per-port ranges. -/
def objNi (g : Gen) (idx sub : Nat) : Option Obj :=
  if idx = 0x4001 then (if sub < 0x7F then const .u32 (g.niMap sub) else none)
  else if 0x4000 ≤ idx && idx < 0x4800 then
    (if (idx - 0x4000) % 16 = 0 then objNiGeneral g ((idx - 0x4000) / 16 + 1) sub else none)
  else if 0x4800 ≤ idx && idx < 0x4E00 then
    let l := (idx - 0x4800) % 0x200 / 4 + 1
    let v := (idx - 0x4800) % 4 * 256 + sub
    if g.hasNi l && g.isInit l then
      (if idx < 0x4A00 then masked .u32 .rw (if v = 0 then 0x90000100 else 0x00100100) 0xFFFFFF00
       else if idx < 0x4C00 then ro .u32 (if v = 0 then 0x20000000 else 0)
       else rw .u32 0)
    else none
  else none

/-- 0x5000 to 0x51F9 (R370). -/
def objGuard (g : Gen) (idx sub : Nat) : Option Obj :=
  let l := (idx - 0x5000) / 4 + 1
  if 0x5000 ≤ idx && idx < 0x51FA && g.hasNi l && g.isInit l then
    (if (idx - 0x5000) % 4 = 0 then
      (match sub with
       | 1 => masked .u32 .rw 0x20 0x800000F7
       | 2 | 3 | 4 => ro .u64
       | 5 | 6 => ro (.domain 16)
       | 7 => ro .u32
       | 8 => wo .u8
       | _ => if 0x10 ≤ sub && sub < 0x20 then ro (.domain 16) else none)
     else if (idx - 0x5000) % 4 = 1 && sub < 32 then masked (.domain 16) .rw 0 (bits 127 93 + bits 87 44) else none)
  else none

/-- 0x6000 to 0x657F (R349). -/
def objEngine (g : Gen) (idx sub : Nat) : Option Obj :=
  if idx = 0x6000 then (if sub = 1 then ranged .u16 .rws 0 0 2047 else none)
  else if 0x6100 ≤ idx && idx < 0x6180 then
    let i := idx - 0x6100
    if !g.hasEngine i then none
    else match sub with
    | 0x01 => ro .u8 2
    | 0x02 => masked .u32 .rws 0x3E 0x3F
    | 0x03 => ro .u16
    | 0x04 => const .u16 ((g.engHost i).1 * 4 + (g.engHost i).2)
    | 0x05 | 0x07 => ro .u64
    | 0x06 | 0x08 | 0x09 => ro .u32
    | 0x0A => rw .u32 1000000
    | 0x0B => ranged .u16 .rw 100 10 10000
    | 0x0C => ranged .u16 .rw 1000 10 60000
    | 0x0D => wo .u32
    | 0x0E => some (.plain .bool .rws 1)
    | 0x0F => ro (.domain 64)
    | _ =>
      if 0x10 ≤ sub && sub < 0x20 then ranged .u16 .rws 0 0 4095
      else if 0x20 ≤ sub && sub < 0x30 then masked (.domain 16) .rws 0 (bits 127 32)
      else if 0x30 ≤ sub && sub < 0x40 then ro .u16
      else none
  else if 0x6400 ≤ idx && idx < 0x6480 then
    (if g.hasEngine (idx - 0x6400) && sub < 64 then some (.plain (.domain 256) .rws 0) else none)
  else if 0x6500 ≤ idx && idx < 0x6580 then
    (if g.hasEngine (idx - 0x6500) && sub < 128 then rw (.domain 256) 0 else none)
  else none

/-- 0x7100 to 0x7107 (R399). -/
def objPort (g : Gen) (idx sub : Nat) : Option Obj :=
  let p := idx - 0x7100
  if 0x7100 ≤ idx && idx < 0x7108 && g.hasPort p then
    match sub with
    | 0x01 => ro .u8
    | 0x02 => const .u8 (g.phy p)
    | 0x03 => if g.phy p = 1 then some (.plain .u8 .rws 32) else none
    | 0x04 | 0x05 => ro .u8
    | 0x06 | 0x08 => ro .u16
    | 0x07 => ro .u32 0xFFFFFFFF
    | 0x09 | 0x0A | 0x0B | 0x0D => ro .u64
    | 0x0C | 0x12 => ro .u32
    | 0x0E => ranged .u8 .rw 8 1 32
    | 0x0F => ranged .u16 .rw 64 1 65535
    | 0x10 => ranged .u8 .rw 3 1 15
    | 0x11 => ranged .u8 .wo 0 1 3
    | _ => none
  else none

/-- 0x8000 to 0x8302 (R434). Domain 0 has no PWR_FLOOR (R435). -/
def objPower (g : Gen) (idx sub : Nat) : Option Obj :=
  if idx = 0x8000 then
    match sub with
    | 1 => rw .bool 1
    | 2 => ranged .u16 .rw 64 16 65535
    | 3 => ranged .u32 .rw 20 4 1000000
    | 4 => ranged .u32 .rw 2000 80 10000000
    | 5 => ranged .u32 .rw 200 100 1000000
    | 6 => ranged .u32 .rw 50 8 1000000
    | 7 => ranged .u32 .rw 5000 400 10000000
    | 8 => ranged .u16 .rw 2500 250 65535
    | 9 => ranged .u16 .rw 10 1 1000
    | 10 => ranged .u16 .rw 100 50 10000
    | 11 => ranged .u8 .rw 4 1 128
    | 12 => wo .u64
    | _ => none
  else if 0x8100 ≤ idx && idx < 0x8180 then
    let d := idx - 0x8100
    if !g.hasDom d then none
    else match sub with
    | 1 => const .u8 (g.domKind d)
    | 2 => ranged .u16 .rws (((g.dom? d).map (·.freq)).getD 0) 250 2000
    | 3 | 6 => ro .u8
    | 4 => if d = 0 then none else ranged .u8 .rw 3 0 3
    | 5 => ro .u16
    | 7 => masked .u16 .w1c 0 0x0F
    | 8 | 9 | 10 | 11 | 12 => ro .u32
    | _ => none
  else if idx = 0x8300 then (if 1 ≤ sub && g.hasNi sub then masked .u16 .rw 0 0xF3FF else none)
  else if idx = 0x8301 then (if 1 ≤ sub && g.hasPort (sub - 1) then masked .u16 .rw 0 0xF3FF else none)
  else if idx = 0x8302 then (if 1 ≤ sub && g.hasPort (sub - 1) then ro .u8 else none)
  else none

/-- Whether a log stands at an index (R457). -/
def hasLog (g : Gen) (idx : Nat) : Bool :=
  idx == 0x9000 || (0x9100 ≤ idx && idx < 0x9200 && g.hasRouter (idx - 0x9100)) ||
  (0x9200 ≤ idx && idx < 0x9280 && g.hasNi (idx - 0x9200)) || (0x9300 ≤ idx && idx < 0x9308 && g.hasPort (idx - 0x9300)) ||
  (0x9400 ≤ idx && idx < 0x9480 && g.hasDom (idx - 0x9400))

/-- 0x9000 to 0x9800 (R457). -/
def objLog (g : Gen) (idx sub : Nat) : Option Obj :=
  if idx = 0x9800 then
    match sub with
    | 1 => masked .u8 .w1c 0 0x07
    | 2 => masked .u8 .rw 0x0E 0x0F
    | 3 => masked .u32 .rw 0 0xFFFFFF0F
    | 4 => ranged .u16 .rw 16 1 65535
    | 5 => ranged .u8 .rw 10 1 255
    | 6 => ranged .u8 .rw 4 1 255
    | 7 => ro (.domain 32)
    | 8 | 10 => ro (.domain 16)
    | 9 => ro .u8
    | 11 => ro .u32
    | _ => none
  else if !hasLog g idx then none
  else match sub with
  | 1 | 2 => ro (.domain 16)
  | 3 | 4 | 5 | 6 => ro .u32
  | 7 => masked .u8 .rw 1 3
  | 8 => wo .u8
  | 9 => if 0x9100 ≤ idx && idx < 0x9200 then ro .u8 else none
  | _ => none

/-- 0xA000 to 0xA801 (R233, R506, R514). -/
def objWatch (g : Gen) (idx sub : Nat) : Option Obj :=
  if idx = 0xA000 then
    match sub with
    | 1 => masked .u8 .w1c 0 0x1E
    | 2 => ro .u16
    | 3 | 4 => ro .ftime
    | 5 => rw .bool 0
    | _ => none
  else if 0xA100 ≤ idx && idx < 0xA200 then
    (if !g.hasRouter (idx - 0xA100) then none
     else if sub < 0x40 then ro .u64
     else if sub = 0x40 then rw .u16 0
     else if sub = 0x41 then ranged .u8 .rw 24 0 47
     else none)
  else if 0xA201 ≤ idx && idx < 0xA27F then
    (let l := idx - 0xA200
     if !g.hasNi l then none
     else if sub < 0x80 then ro .u64
     else if sub = 0x80 then rw .u32 0
     else if sub = 0x81 then ranged .u16 .rw 2048 0 4095
     else if sub = 0x82 then ranged .u16 .rw 256 0 511
     else if !g.isInit l then none
     else if sub = 0x83 then masked .u32 .rw 0x3D4 0x3FF
     else if sub = 0x84 then ro .u32
     else if sub = 0x85 then masked .u32 .rw 0x0010F000 0xFFFFFBFF
     else if 0x90 ≤ sub && sub < 0xB0 then ro .u64
     else none)
  else if 0xA301 ≤ idx && idx < 0xA37F then
    (if g.hasNi (idx - 0xA300) && g.isInit (idx - 0xA300) then ro (.domain 32) else none)
  else if 0xA400 ≤ idx && idx < 0xA480 then
    (if g.hasDom (idx - 0xA400) && 8 ≤ sub && sub ≤ 12 then ro .u32 else none)
  else if 0xA500 ≤ idx && idx < 0xA508 then
    (if g.hasPort (idx - 0xA500) then
      (match sub with
       | 0x09 | 0x0A | 0x0B | 0x0D => ro .u64
       | 0x0C | 0x12 => ro .u32
       | _ => none)
     else none)
  else if 0xA600 ≤ idx && idx < 0xA67F then
    (if g.hasNi (idx - 0xA600) && 1 ≤ sub && sub ≤ 5 then ro .u64 else none)
  else if idx = 0xA700 then (if sub < 0x40 then ro (.domain 128) else if sub = 0x40 then ro .u32 else none)
  else if idx = 0xA800 then (if 1 ≤ sub && g.hasDom sub then ro .u32 else none)
  else if idx = 0xA801 then
    match sub with
    | 1 => ranged .u16 .rw 700 100 1000
    | 2 => ro .u32
    | _ => none
  else none

/-- 0xF000 and 0xF001 (R492). -/
def objCommand (idx sub : Nat) : Option Obj :=
  if idx = 0xF000 then
    match sub with
    | 1 | 2 | 4 => wo .u16
    | 3 | 5 => wo .u8
    | 6 => ranged .u8 .wo 0 1 2
    | 7 => wo .ftime
    | _ => none
  else if idx = 0xF001 then (if sub = 1 || sub = 2 then ro .u32 else none)
  else none

/-- The object at a key, or none where it is absent (R5, R491). -/
def objOf (g : Gen) (k : Nat) : Option Obj :=
  let idx := k / 256
  let sub := k % 256
  if idx < 0x2000 then objIdent g idx sub
  else if idx < 0x3000 then objRouter g idx sub
  else if idx < 0x4000 then objTime g idx sub
  else if idx < 0x5000 then objNi g idx sub
  else if idx < 0x6000 then objGuard g idx sub
  else if idx < 0x7000 then objEngine g idx sub
  else if idx < 0x8000 then objPort g idx sub
  else if idx < 0x9000 then objPower g idx sub
  else if idx < 0xA000 then objLog g idx sub
  else if idx < 0xB000 then objWatch g idx sub
  else objCommand idx sub

/-- Persistence (R463). -/
def persistent (k : Nat) (o : Obj) : Bool :=
  (o.acc == .rw || o.acc == .rws) && k != key 0x3100 4 && k != key 0x3100 9 &&
  !(0x4000 ≤ k / 256 && k / 256 < 0x4800 && k / 256 % 16 == 0 && k % 256 == 0x33) &&
  !(0x6500 ≤ k / 256 && k / 256 < 0x6580)

/-- The owning function of an object: the unit its index belongs to, unless its chapter names another (R474 text, R19,
R94, R129, R201, R350, R435). DEDUCED (log 14): the pricking function owns RSV_ENTRY and the class-0 descriptors, as it
owns the rest of the pricking. -/
def ownerOf (g : Gen) (k : Nat) : Option Owner :=
  let idx := k / 256
  let sub := k % 256
  if idx = 0x1001 then some .instance_
  else if idx = 0x2000 || idx = 0x2100 || idx = 0x2101 then some (.func 0x2000)
  else if 0x2200 ≤ idx && idx < 0x2300 then some (.func (0x1000 + (idx - 0x2200)))
  else if 0x2300 ≤ idx && idx < 0x2304 then some (.group ((idx - 0x2300) * 256 + sub))
  else if 0x2400 ≤ idx && idx < 0x2800 then some (.group (idx - 0x2400))
  else if idx = 0x3000 || idx = 0x3001 || idx = 0x3002 || idx = 0x3003 || idx = 0x3100 then some (.func 0x6000)
  else if 0x3400 ≤ idx && idx < 0x3580 then some (.func 0x6000)
  else if 0x3800 ≤ idx && idx < 0x4000 then some (.func 0x6000)
  else if 0x4000 ≤ idx && idx < 0x4800 then some (.func (0x3000 + ((idx - 0x4000) / 16 + 1)))
  else if 0x4800 ≤ idx && idx < 0x4E00 then some (.func (0x3000 + ((idx - 0x4800) % 0x200 / 4 + 1)))
  else if 0x5000 ≤ idx && idx < 0x5200 then some (.func (0x3000 + ((idx - 0x5000) / 4 + 1)))
  else if idx = 0x6000 then some .engines
  else if 0x6100 ≤ idx && idx < 0x6180 && sub = 0x0E then some (.func (0x3000 + (g.engHost (idx - 0x6100)).1))
  else if 0x6100 ≤ idx && idx < 0x6180 then some (.func (0x4000 + (idx - 0x6100)))
  else if 0x6400 ≤ idx && idx < 0x6480 then some (.func (0x4000 + (idx - 0x6400)))
  else if 0x6500 ≤ idx && idx < 0x6580 then some (.func (0x4000 + (idx - 0x6500)))
  else if 0x7100 ≤ idx && idx < 0x7108 then some (.func (0x5000 + (idx - 0x7100)))
  else if 0x8100 ≤ idx && idx < 0x8180 then some (.domain (idx - 0x8100))
  else if 0x8301 = idx && 1 ≤ sub then some (.func (0x5000 + (sub - 1)))
  else if 0x8300 = idx then some (.func (0x3000 + sub))
  else if 0x9100 ≤ idx && idx < 0x9200 then some (.func (0x1000 + (idx - 0x9100)))
  else if 0x9200 ≤ idx && idx < 0x9280 then some (.func (0x3000 + (idx - 0x9200)))
  else if 0x9300 ≤ idx && idx < 0x9308 then some (.func (0x5000 + (idx - 0x9300)))
  else if 0xA100 ≤ idx && idx < 0xA200 then some (.func (0x1000 + (idx - 0xA100)))
  else if 0xA200 ≤ idx && idx < 0xA400 then some (.func (0x3000 + (idx - 0xA200) % 0x100))
  else none

/-- Objects whose accepted RWS value is in force at once (R521). -/
def immediate (k : Nat) : Bool := k / 256 == 0x1001 || k == key 0x3000 1 || k / 256 == 0x3003

/-- The 16-byte descriptor MG_INFO returns (R462). -/
def Obj.descriptor (o : Obj) (k dflt : Nat) : Nat :=
  o.ty.code * 2 ^ 120 + o.acc.code * 2 ^ 116 + (persistent k o).toNat * 2 ^ 115 + o.ty.size * 2 ^ 104 +
  (if o.ty.size ≤ 8 then dflt else 0) * 2 ^ 32

/-- General object `sub` of NI l. -/
def niKey (l sub : Nat) : Nat := key (0x4000 + 0x10 * (l - 1)) sub

/-- VP_CTRL, VP_STATUS (0x4A00) and VP_SHAPE (0x4C00) of virtual port v of NI l. -/
def vpKey (base l v : Nat) : Nat := key (base + 4 * (l - 1) + v / 256) (v % 256)

def guardKey (l sub : Nat) : Nat := key (0x5000 + 4 * (l - 1)) sub

end Sys2Proof.Machine
end

