-- ==== Sys2Proof/Machine/Operands.lean ====
section
/-! DEFINITION. The forms a packet can take: the command table (R51, R52), lengths (R49, R60-R63), virtual networks,
channels and virtual channels (R65-R67, R239), the checks of R53 with their kinds (R526), and how a response is made
(R55, R56, R58). -/

namespace Sys2Proof

/-! ### STATUS codes (R58) -/

def stOk : Nat := 0
def stPoliced : Nat := 1
def stGuardDenied : Nat := 2
def stProtocol : Nat := 3
def stUnreachable : Nat := 4
def stTimeout : Nat := 5
def stPoison : Nat := 6
def stRetryExhausted : Nat := 7
def stStopped : Nat := 8
def stSquashed : Nat := 9

/-! ### The command table -/

def between (lo hi n : Nat) : Bool := lo ≤ n && n ≤ hi

/-- The commands the fabric recognises (R51, R52). -/
def knownCmd (c : Nat) : Bool :=
  between 0x00 0x03 c || between 0x20 0x26 c || between 0x40 0x4A c || between 0x50 0x53 c || between 0x60 0x7F c ||
  between 0x80 0x82 c || between 0x90 0x93 c || between 0xA0 0xAF c || between 0xF0 0xF4 c

/-- Fabric-internal commands (R54). -/
def isInternal (c : Nat) : Bool := between 0xF0 0xFF c

/-- Non-posted commands (R51, column Kind). -/
def isNonPosted (c : Nat) : Bool :=
  between 0x00 0x03 c || c == 0x20 || c == 0x22 || c == 0x25 || c == 0x26 || between 0x40 0x4A c || c == 0x52 ||
  between 0xA0 0xAF c

def isResponse (c : Nat) : Bool := between 0x90 0x93 c
def isCoherence (c : Nat) : Bool := between 0x60 0x7F c
def isAtomic (c : Nat) : Bool := between 0x40 0x4A c
def isRead (c : Nat) : Bool := between 0x00 0x03 c
def isManagement (c : Nat) : Bool := between 0xA0 0xAF c
def isCollective (c : Nat) : Bool := c == 0x50 || c == 0x51
/-- Commands that carry an engine address (R299). -/
def namesEngine (c : Nat) : Bool := c == 0x03 || c == 0x26 || between 0x50 0x53 c

/-- VNs a command may travel on (R51, column VN). -/
def cmdVns (c : Nat) : List Nat :=
  if c = 0x00 then [0, 1]
  else if between 0x01 0x03 c then [0]
  else if between 0x20 0x24 c then [0, 3]
  else if c = 0x25 || c = 0x26 || between 0x40 0x4A c || c = 0x52 then [0]
  else if c = 0x50 || c = 0x51 || c = 0x53 || between 0x80 0x82 c then [4]
  else if isCoherence c then [0, 1, 2, 3]
  else if isResponse c || c = 0xF0 || c = 0xF1 || c = 0xF4 then [2]
  else if isManagement c || c = 0xF2 || c = 0xF3 then [5]
  else []

/-- Commands that carry their payload in ⌈LEN/64⌉ data flits (R51, column Data flits; R465 for MG_n). -/
def hasData (c : Nat) : Bool :=
  c == 0x20 || c == 0x21 || c == 0x26 || c == 0x50 || c == 0x51 || c == 0x52 || isCoherence c || c == 0x80 ||
  c == 0x91 || c == 0x93 || c == 0xA1 || between 0xA4 0xAF c

/-- Data flits of a command at a LEN (R51). -/
def dataFlits (c len : Nat) : Nat :=
  if c = 0x22 || c = 0x23 then 1
  else if c = 0x42 then (if len = 32 then 1 else 0)
  else if hasData c then ceilDiv len 64
  else 0

/-- LEN within the range its command allows (R49, R50, R51, R60, R465). Partial writes have their own check (R63). -/
def lenOk (c len : Nat) : Bool :=
  if c = 0x02 || c = 0x25 then between 1 8 len
  else if c = 0x24 || c = 0x81 || c = 0x92 then len ≤ 26
  else if c = 0x42 then len == 0 || len == 32
  else if isAtomic c || c = 0x53 || c = 0x82 || c = 0x90 || c = 0xA0 || c = 0xA2 || c = 0xA3 then len == 0
  else len ≤ 256

/-- Classes a VN carries (R65). -/
def vnClassOk (vn cls : Nat) : Bool :=
  if vn = 1 then 1 ≤ cls else if vn = 5 then cls == 1 else true

/-- Commands whose bytes at ADDR must lie in one 256 B block (R61): reads, writes and COLL_*. -/
def namesBytes (c : Nat) : Bool := between 0x00 0x03 c || between 0x20 0x26 c || c == 0x50 || c == 0x51

/-- Commands split at a 256 B boundary (R250). -/
def isSplittable (c : Nat) : Bool := c == 0x00 || c == 0x03 || c == 0x20 || c == 0x21 || c == 0x24 || c == 0x26

def Hdr.c (h : Hdr) : Nat := h.cmd.toNat
def Hdr.v (h : Hdr) : Nat := h.vn.toNat
def Hdr.k (h : Hdr) : Nat := h.cls.toNat
def Hdr.n (h : Hdr) : Nat := h.len.toNat
def Hdr.a (h : Hdr) : Nat := h.addr.toNat
def Hdr.np (h : Hdr) : Bool := isNonPosted h.c

/-- A request's bytes cross a 256 B boundary (R61, R250). -/
def Hdr.crosses (h : Hdr) : Bool := 1 ≤ h.n && h.a / 256 != (h.a + h.n - 1) / 256

/-- Operand size of an atomic in bytes (R49); reserved codes give none. -/
def opSize (code : Nat) : Option Nat := if code ≤ 4 then some (2 ^ code) else none

/-- Channel a packet belongs on (R239). -/
def Hdr.channel (h : Hdr) : Nat := if h.k = 0 then (if h.v = 2 then 7 else 6) else h.v

/-- Virtual channel of a packet on a link (R66, R67). -/
def Hdr.vc (h : Hdr) : Nat :=
  if h.k = 0 then (if h.v = 2 then 13 else 12) else 2 * h.v + h.dateline.toNat

/-- Flits of a packet, as its header tells them (R42, R51). -/
def Hdr.flits (h : Hdr) : Nat := 1 + dataFlits h.c h.n

/-- The flow of a packet (R74). -/
def Hdr.flow (h : Hdr) : FlowKey := ⟨h.src, h.dest, h.mcast, h.vn, h.cls⟩

/-- Packets released by POSTED_ACK: posted packets and responses (R259, R262). -/
def Hdr.acked (h : Hdr) : Bool := !h.np && !isInternal h.c

/-- Packets kept in the retransmit store (R262). DEDUCED (log 17): a multicast packet is not kept, since no destination
acknowledges it (R82). -/
def Hdr.kept (h : Hdr) : Bool := !isInternal h.c && !h.mcast

/-! ### The checks of R53 -/

/-- The first check of R53 (with R235 and R250) that a packet from an agent fails, as the kind of R526. `target` says the
NI is a target NI. MCAST is allowed on VN M and F. DEDUCED (log 13): a reserved VN is reported as kind 3, not kind 2. -/
def packetFault (target : Bool) (h : Hdr) : Option Nat :=
  if !knownCmd h.c || isInternal h.c then some 0x0001
  else if h.v ≥ 6 then some 0x0003
  else if !(cmdVns h.c).contains h.v then some 0x0002
  else if h.mcast && h.v != 4 && h.v != 1 then some 0x0004
  else if h.n > 256 then some 0x0005
  else if h.c = 0x22 || h.c = 0x23 then
    (if h.a % 64 != 0 || h.n != 64 then some 0x0007
     else if !vnClassOk h.v h.k then some 0x0006
     else if target && h.np then some 0x000D else none)
  else if !lenOk h.c h.n then some 0x0005
  else if !vnClassOk h.v h.k then some 0x0006
  else if namesBytes h.c && h.crosses && (h.k = 0 || !isSplittable h.c) then some 0x0008
  else if target && h.np then some 0x000D
  else none

/-- The checks of R239 and R240: the channel, then the number and order of the data flits. -/
def ingressFault (q : Ingress) : Option Nat :=
  if q.ch != q.hdr.channel then some 0x0009
  else if q.badOrder || q.data.length != dataFlits q.hdr.c q.hdr.n then some 0x000A
  else none

/-! ### Responses -/

/-- The header of a completion to a request (R55, R56), from fabric ID `self`. -/
def rspHdr (req : Hdr) (self : BitVec 16) (cmd status len : Nat) : Hdr :=
  { Hdr.zero with
    dest := req.src, src := self, vn := 2, cls := if isManagement req.c then 1 else req.cls, cmd := BitVec.ofNat 8 cmd,
    tag := req.tag, len := BitVec.ofNat 9 len, vport := req.vport, addr := req.addr,
    csf := BitVec.ofNat 215 (status % 16 * 2 ^ 211) }

/-- STATUS of a completion (R49). -/
def Hdr.status (h : Hdr) : Nat := h.csfFld 246 243

/-- Inline bytes of a packet (R49). -/
def Hdr.inlineBytes (h : Hdr) : List Byte := toBytes (h.csfFld 239 32) h.n

def Hdr.withInline (h : Hdr) (bs : List Byte) : Hdr :=
  { h with csf := BitVec.ofNat 215 (setFld h.csf.toNat 207 0 (ofBytes bs)), len := BitVec.ofNat 9 bs.length }

/-- The bytes a packet carries, inline or in data flits. -/
def Pkt.content (p : Pkt) : List Byte :=
  if p.hdr.c = 0x24 || p.hdr.c = 0x25 || p.hdr.c = 0x81 || p.hdr.c = 0x92 then p.hdr.inlineBytes else p.bytes

/-- A response without data. -/
def rspPkt (req : Hdr) (self : BitVec 16) (status : Nat) : Pkt := ⟨rspHdr req self 0x90 status 0, [], false, []⟩

/-- A response with data in data flits. -/
def rspDataPkt (req : Hdr) (self : BitVec 16) (status : Nat) (bs : List Byte) : Pkt :=
  mkPkt (rspHdr req self 0x91 status bs.length) bs

/-- A response with inline data. -/
def rspInlinePkt (req : Hdr) (self : BitVec 16) (status : Nat) (bs : List Byte) : Pkt :=
  ⟨(rspHdr req self 0x92 status bs.length).withInline bs, [], false, []⟩

/-- The completion a router, bridge or link layer makes (R444). DESIGN CHOICE (log 165): its INJ_TIME stays 0, since R43
defines the field only for a header that enters an NI's injection stage; so does that of PARTIAL_DELIVERY from a router. -/
def generatedPkt (req : Hdr) (node status : Nat) : Pkt :=
  ({ hdr := { rspHdr req (mkFid node 0) 0x90 status 0 with cls := 1, seq := 0 }, data := [], badHdr := false,
     badData := [] } : Pkt).seal

/-- A generated completion is known by its SRC (R444): RSP from local ID 0x00. -/
def Hdr.isGenerated (h : Hdr) : Bool := h.c == 0x90 && fidLocal h.src == 0

/-- A response answers a request as R56 and R258 ask: a data response only to a read, or to an atomic that returns the old
value, with the data asked for; otherwise RSP without data. -/
def responseFits (req rsp : Hdr) (flits : Nat) : Bool :=
  if rsp.c = 0x90 then
    rsp.n == 0 && flits == 0 &&
      (rsp.status != stOk || !(isRead req.c || (isAtomic req.c && req.csfFld 240 240 == 0)))
  else if rsp.c = 0x91 || rsp.c = 0x92 then
    rsp.status == stOk && flits == dataFlits rsp.c rsp.n &&
      (if isRead req.c then rsp.n == req.n
       else isAtomic req.c && req.csfFld 240 240 == 0 && opSize (req.csfFld 246 244) == some rsp.n)
  else false

end Sys2Proof
end

