-- ==== Sys2Proof/Machine/Ops.lean ====
section
/-! DEFINITION. The named operations every meaning is made of: registers, counters, time, logs, memory, units, links,
what leaves the block, and what the Shuttle sends of itself. -/

namespace Sys2Proof.Machine

open Sys2Proof

/-! ### MG_STATUS (R467) -/

def mgOk : Nat := 0
def mgAbsent : Nat := 1
def mgReadOnly : Nat := 2
def mgStopRequired : Nat := 3
def mgRange : Nat := 4
def mgLocked : Nat := 5
def mgBusy : Nat := 6
def mgPrkArmed : Nat := 7
def mgTreeInvalid : Nat := 8
def mgLength : Nat := 9
def mgUnknown : Nat := 0x0A
def mgDenied : Nat := 0x0B
def mgQueueFull : Nat := 0x0C

/-! ### How a meaning answers -/

/-- The next state a change of the machine gives; the generated description and the queue stay. -/
def State.run (s : State) (f : Gen → Mach → Mach) : Host.Outcome State Fault Refusal :=
  .next { s with m := f s.gen s.m }

/-- As `State.run`, for an event of a named part: a part that was not generated has no event (R15, log 10). -/
def State.runIf (s : State) (present : Bool) (f : Gen → Mach → Mach) : Host.Outcome State Fault Refusal :=
  if present then s.run f else .next s

/-- As `State.runIf`, for an arriving packet, which must carry the CMD of its row. -/
def State.runPkt (s : State) (present : Bool) (cmd : Bool) (f : Gen → Mach → Mach) : Host.Outcome State Fault Refusal :=
  if present then (if cmd then s.run f else .refused .illFormed) else .next s

/-! ### What leaves the block -/

def Mach.emit (m : Mach) (o : Out) : Mach := { m with out := m.out ++ [o] }

/-- A dictionary access ends with its MG_STATUS. -/
def withStatus (x : Mach × Nat) : Mach := x.1.emit (.status x.2)

/-- A command row that is a write of an object: where the object belongs to a part that was not generated the write is
refused with OBJECT_ABSENT and has no side effect (R5). -/
def State.runWrite (s : State) (present : Bool) (f : Gen → Mach → Mach × Nat) : Host.Outcome State Fault Refusal :=
  s.run fun g m => withStatus (if present then f g m else (m, mgAbsent))

/-! ### Registers -/

/-- The default of an object: its table's, but for ENG_BASE, which follows NODE_ID (R298). -/
def dfltOf (g : Gen) (m : Mach) (k : Nat) : Nat :=
  if k = key 0x6000 1 then 64 * (m.regs.getD (key 0x1001 1) 0xFFFF % 32)
  else ((objOf g k).map (·.dflt)).getD 0

/-- The value the dictionary store holds for an object (R520: the last accepted one). -/
def Mach.reg (m : Mach) (g : Gen) (k : Nat) : Nat := (m.regs.get? k).getD (dfltOf g m k)

/-- The value in force (R520, R521). -/
def Mach.cfg (m : Mach) (g : Gen) (k : Nat) : Nat := (m.inForce.get? k).getD (m.reg g k)

def Mach.setReg (m : Mach) (k v : Nat) : Mach := { m with regs := m.regs.put k v }

/-- Add to a counter that stops at its type's largest value. -/
def Mach.addSat (m : Mach) (g : Gen) (k n : Nat) : Mach :=
  m.setReg k (min (m.reg g k + n) (((objOf g k).map (·.ty.top)).getD 0))

/-- Add to a counter that wraps at its own width (R499). -/
def Mach.addWrap (m : Mach) (g : Gen) (k n : Nat) : Mach :=
  m.setReg k ((m.reg g k + n) % (((objOf g k).map (·.ty.top)).getD 0 + 1))

/-! A write and a hardware update of one object in the same ao cycle: the update is applied after the write, whichever
command comes first, so a bit of a W1C object that hardware sets reads one (R13, R14). -/

/-- The ao cycle of now, counted from 1 (R9). -/
def Mach.aoCycle (m : Mach) : Nat := m.time.clk / (40 * 65536) + 1

/-- A word with the bits of `mask` taken from `v`. -/
def mergeBits (w mask v : Nat) : Nat := w - (w &&& mask) + (v &&& mask)

/-- What hardware has updated of object k in this ao cycle: mask and value. -/
def Mach.hwNow (m : Mach) (k : Nat) : Nat × Nat :=
  match m.hw.get? k with
  | some (c, mask, v) => if c = m.aoCycle then (mask, v) else (0, 0)
  | none => (0, 0)

/-- Remember that hardware set the bits of `mask` of object k to those of `v`. -/
def Mach.noteHw (m : Mach) (k mask v : Nat) : Mach :=
  { m with hw := m.hw.put k (m.aoCycle, (m.hwNow k).1 ||| mask, mergeBits (m.hwNow k).2 mask v) }

/-- Hardware sets bits of an object. -/
def Mach.orReg (m : Mach) (g : Gen) (k v : Nat) : Mach := (m.setReg k (m.reg g k ||| v)).noteHw k v v

/-- Hardware updates the bits of `mask` of an object. -/
def Mach.hwReg (m : Mach) (g : Gen) (k mask v : Nat) : Mach := (m.setReg k (mergeBits (m.reg g k) mask v)).noteHw k mask v

/-- A write of an object's value takes effect; what hardware updates of it in the same ao cycle is applied after it. -/
def Mach.write (m : Mach) (k v : Nat) : Mach := m.setReg k (mergeBits v (m.hwNow k).1 (m.hwNow k).2)

/-- Add to 48-bit event counter e at index `idx` under CHAIN (R493, R494). -/
def addEvent (m : Mach) (g : Gen) (idx chain e n : Nat) : Mach :=
  if e % 2 = 1 && bit chain (e / 2) then m
  else
    let old := m.reg g (key idx e)
    let m := m.setReg (key idx e) ((old + n) % 2 ^ 48)
    if e % 2 = 0 && bit chain (e / 2) then
      m.setReg (key idx (e + 1)) ((m.reg g (key idx (e + 1)) + (old + n) / 2 ^ 48) % 2 ^ 48)
    else m

/-- Router event counter e of router r (R497). -/
def Mach.cntR (m : Mach) (g : Gen) (r e : Nat) (n : Nat := 1) : Mach :=
  addEvent m g (0xA100 + r) (m.reg g (key (0xA100 + r) 0x40)) e n

/-- NI event counter e of NI l (R498). The Shuttle's NI has none (R507). -/
def Mach.cntN (m : Mach) (g : Gen) (l e : Nat) (n : Nat := 1) : Mach :=
  if l = 0 then m else addEvent m g (0xA200 + l) (m.reg g (key (0xA200 + l) 0x80)) e n

/-- The clock's own cycle events add with several increments at once. -/
def Mach.cntAll (m : Mach) (f : Mach → Nat → Mach) (es : List Nat) : Mach := es.foldl f m

/-! ### Identity -/

def Mach.node (m : Mach) (g : Gen) : Nat := m.cfg g (key 0x1001 1)
def Mach.package (m : Mach) (g : Gen) : Nat := m.cfg g (key 0x1001 2)
/-- The fabric ID of an NI of this instance. -/
def Mach.fid (m : Mach) (g : Gen) (l : Nat) : BitVec 16 := mkFid (m.node g) l

/-! ### Time -/

/-- Units of 1/65,536 ns in a nanosecond, a microsecond and one fc. -/
def nsUnits (n : Nat) : Nat := n * 65536
def usUnits (n : Nat) : Nat := n * 65536000
def fcUnits (n : Nat) : Nat := n * 32768

/-- The slot clock, which timers run on. -/
def Mach.now (m : Mach) : Nat := m.time.clk
/-- Fabric time, and its NS. -/
def Mach.ft (m : Mach) : Nat := m.time.ft
def Mach.ns (m : Mach) : Nat := m.time.ft / 65536

/-- A context whose wait is over is ready in the next fc (R314). -/
def Ctx.wake (x : Ctx) (now : Nat) : Ctx := { x with st := .ready, rdyAt := now + fcUnits 1 }

/-- ST: fabric time in whole half-nanoseconds (R160). -/
def TimeSt.slotTime (t : TimeSt) : Nat := t.ft / 32768

/-- SLOT_ERR = SC − ST (R160). -/
def TimeSt.slotErr (t : TimeSt) : Int := (t.sc : Int) - (t.slotTime : Int)

/-- While LOCKED with the pricking IDLE, SC follows ST (R160). -/
def alignSc (m : Mach) : Mach :=
  if m.time.st = .locked && m.prk.st = .idle then { m with time := { m.time with sc := m.time.slotTime } } else m

/-- How much of the offset being slewed its first `k` fc would remove at a constant rate (R151). -/
def TimeSt.slewed (t : TimeSt) (k : Nat) : Int := t.slew * (min k t.slewLen : Nat) / (t.slewLen : Int)

/-- What fabric time gains in the next `n` fc: a half nanosecond each, and their share of the offset being slewed, at most one
part in `div` (R151). -/
def TimeSt.gain (t : TimeSt) (div n : Nat) : Int :=
  if t.slew = 0 then (fcUnits n : Nat)
  else
    let lim : Int := (fcUnits n / div : Nat)
    (fcUnits n : Nat) + max (-lim) (min lim (t.slewed (t.slewDone + n) - t.slewed t.slewDone))

/-- The slew is limited to 50 ppm while any pricking in the system is ACTIVE, and to 500 ppm otherwise (R151). -/
def Mach.slewDiv (m : Mach) : Nat :=
  if m.prk.st = .active || m.prk.st = .activeArmed || Config.farPricking m.time.clk then 20000 else 2000

/-- `n` fc pass: the slot clock, fabric time and the slot count go on. -/
def TimeSt.pass (t : TimeSt) (div n : Nat) : TimeSt :=
  { t with
    clk := t.clk + fcUnits n
    ft := ((t.ft : Int) + t.gain div n).toNat % 2 ^ 80
    sc := (t.sc + n) % 2 ^ 64
    slewDone := min (t.slewDone + n) t.slewLen }

def Mach.pass (m : Mach) (n : Nat) : Mach := if n = 0 then m else alignSc { m with time := m.time.pass m.slewDiv n }

/-- Let whole fc pass until the slot clock has reached `t` (log 5). -/
def Mach.advanceTo (m : Mach) (t : Nat) : Mach := m.pass ((t - m.now + 32767) / 32768)

/-- The fewest fc that bring fabric time to gain at least `d`, found bit by bit from 2 ^ `bits`; `n` fc do not. -/
def TimeSt.fcsFor (t : TimeSt) (div : Nat) (d : Int) : Nat → Nat → Nat
  | 0, n => n + 1
  | bits + 1, n => t.fcsFor div d bits (if t.gain div (n + 2 ^ bits) < d then n + 2 ^ bits else n)

/-- Let whole fc pass until fabric time has reached `t`. -/
def Mach.advanceFt (m : Mach) (t : Nat) : Mach :=
  if t ≤ m.time.ft then m else m.pass (m.time.fcsFor m.slewDiv ((t : Int) - (m.time.ft : Int)) 80 0)

/-! ### Timers -/

/-- Start timer `t` anew, to run out after `len`. -/
def Mach.startTimer (m : Mach) (t : Timer) (len : Nat) : Mach :=
  { m with timers := (t, m.now + len) :: m.timers.filter fun x => x.1 != t }

def Mach.stopTimers (m : Mach) (p : Timer → Bool) : Mach := { m with timers := m.timers.filter fun x => !p x.1 }

def Mach.stopTimer (m : Mach) (t : Timer) : Mach := m.stopTimers (· == t)

/-- When a running timer runs out. -/
def Mach.deadline (m : Mach) (t : Timer) : Option Nat := (m.timers.find? fun x => x.1 == t).map (·.2)

/-- The end of timer `t`, which a row of its own brings (log 5): nothing where it does not run; otherwise time goes on to
its deadline, it stops, and `f` happens. -/
def Mach.onExpiry (m : Mach) (t : Timer) (f : Mach → Mach) : Mach :=
  match m.deadline t with
  | none => m
  | some d => f ((m.advanceTo d).stopTimer t)

/-- Length of a Shuttle control tick, 1 ms, and of a wait of at least `len` that ends at one (log 164). -/
def tickUnits : Nat := usUnits 1000

/-- The wait for the `n`-th control tick from now. -/
def Mach.ticksOn (m : Mach) (n : Nat) : Nat := (m.now / tickUnits + n) * tickUnits - m.now

def Mach.toTick (m : Mach) (len : Nat) : Nat := (m.now + len + tickUnits - 1) / tickUnits * tickUnits - m.now

/-! ### Units -/

def Mach.rt (m : Mach) (g : Gen) (r : Nat) : Router := m.routers.getD r (Router.reset g r)
def Mach.ni (m : Mach) (l : Nat) : Ni := m.nis.getD l Ni.reset
def Mach.eng (m : Mach) (i : Nat) : Engine := m.engines.getD i Engine.reset
def Mach.port (m : Mach) (p : Nat) : Port := m.ports.getD p Port.reset
def Mach.dom (m : Mach) (d : Nat) : Domain := m.domains.getD d Domain.reset

def Mach.updR (m : Mach) (r : Nat) (f : Router → Router) : Mach := { m with routers := m.routers.upd r f }
def Mach.updN (m : Mach) (l : Nat) (f : Ni → Ni) : Mach := { m with nis := m.nis.upd l f }
def Mach.updE (m : Mach) (i : Nat) (f : Engine → Engine) : Mach := { m with engines := m.engines.upd i f }
def Mach.updP (m : Mach) (p : Nat) (f : Port → Port) : Mach := { m with ports := m.ports.upd p f }
def Mach.updD (m : Mach) (d : Nat) (f : Domain → Domain) : Mach := { m with domains := m.domains.upd d f }
def Mach.updSh (m : Mach) (f : Shuttle → Shuttle) : Mach := { m with sh := f m.sh }
def Mach.updT (m : Mach) (f : TimeSt → TimeSt) : Mach := { m with time := f m.time }

def Mach.updEp (m : Mach) (l : Nat) (f : Ep → Ep) : Mach := m.updN l fun n => { n with ep := f n.ep }
def Mach.updTx (m : Mach) (l : Nat) (f : Tx → Tx) : Mach := m.updN l fun n => { n with tx := f n.tx }
def Mach.updTab (m : Mach) (l : Nat) (f : NiTab → NiTab) : Mach := m.updN l fun n => { n with tab := f n.tab }
def Mach.updRx (m : Mach) (l : Nat) (f : Rx → Rx) : Mach := m.updN l fun n => { n with rx := f n.rx }

def Mach.updIn (m : Mach) (r p : Nat) (f : InPort → InPort) : Mach := m.updR r fun x => { x with ins := x.ins.upd p f }
def Mach.updOut (m : Mach) (r p : Nat) (f : OutPort → OutPort) : Mach := m.updR r fun x => { x with outs := x.outs.upd p f }
def Mach.inp (m : Mach) (g : Gen) (r p : Nat) : InPort := (m.rt g r).ins.getD p InPort.reset
def Mach.outp (m : Mach) (g : Gen) (r p : Nat) : OutPort := (m.rt g r).outs.getD p OutPort.reset
def Mach.chan (m : Mach) (p c : Nat) : Chan := (m.port p).chans.getD c Chan.reset
def Mach.updC (m : Mach) (p c : Nat) (f : Chan → Chan) : Mach := m.updP p fun x => { x with chans := x.chans.upd c f }
def Mach.updCtx (m : Mach) (i c : Nat) (f : Ctx → Ctx) : Mach := m.updE i fun e => { e with ctxs := e.ctxs.upd c f }
def Mach.ctx? (m : Mach) (i c : Nat) : Option Ctx := (m.eng i).ctxs.get? c

def Mach.vp (m : Mach) (l v : Nat) : Vp :=
  (m.ni l).vps.getD v ⟨if v = 0 then .running else .disabled, Bucket.reset, 0, true, 0⟩
def Mach.updVp (m : Mach) (l v : Nat) (f : Vp → Vp) : Mach :=
  let x := f (m.vp l v)
  m.updN l fun n => { n with vps := n.vps.put v x }

/-! ### Memory of an engine (R302, R305): canonical lists of bytes, an unlisted byte reads 0 -/

namespace Mem

/-- Addresses strictly rising, no byte equal to what an unlisted address reads as. -/
def wf : List Host.Cell → Bool
  | [] => true
  | [(_, b)] => b != 0
  | (a, b) :: (a', b') :: rest => b != 0 && a < a' && wf ((a', b') :: rest)

def read1 : List Host.Cell → Nat → Byte
  | [], _ => 0
  | (a', b) :: rest, a => if a' = a then b else read1 rest a

/-- Write one byte; writing 0 takes the entry off the list. -/
def write1 : List Host.Cell → Nat → Byte → List Host.Cell
  | [], a, b => if b = 0 then [] else [(a, b)]
  | (a', b') :: rest, a, b =>
    if a < a' then (if b = 0 then (a', b') :: rest else (a, b) :: (a', b') :: rest)
    else if a' = a then (if b = 0 then rest else (a, b) :: rest)
    else (a', b') :: write1 rest a b

/-- `n` bytes from address `a`, little-endian. -/
def read (mem : List Host.Cell) (a n : Nat) : Nat := ofBytes ((List.range n).map fun i => read1 mem (a + i))

/-- `n` bytes of `v` to address `a`, little-endian. -/
def write (mem : List Host.Cell) (a n v : Nat) : List Host.Cell :=
  (toBytes v n).zipIdx.foldl (fun mem (b, i) => write1 mem (a + i) b) mem

def writeBytes (mem : List Host.Cell) (a : Nat) (bs : List Byte) : List Host.Cell :=
  bs.zipIdx.foldl (fun mem (b, i) => write1 mem (a + i) b) mem

def readBytes (mem : List Host.Cell) (a n : Nat) : List Byte := (List.range n).map fun i => read1 mem (a + i)

end Mem

/-! ### On-die links -/

/-- Key of a receiving end in `Mach.wires`. -/
def linkKey : LinkEnd → Nat
  | .rtr r p => r * 8 + p
  | .ni l => 4096 + l

def Mach.wire (m : Mach) (e : LinkEnd) : List WireFlit := m.wires.getD (linkKey e) []
def Mach.setWire (m : Mach) (e : LinkEnd) (ws : List WireFlit) : Mach :=
  { m with wires := if ws.isEmpty then m.wires.del (linkKey e) else m.wires.put (linkKey e) ws }
def Mach.pushWire (m : Mach) (e : LinkEnd) (f : Flit) : Mach := m.setWire e (m.wire e ++ [f.pack])

/-- The receiving end of the on-die link out of port p of router r: the facing input of the neighbour, or the NI. -/
def farEnd (g : Gen) (r p : Nat) : LinkEnd :=
  if p = 4 || p = 5 then .ni ((g.niAt r p).getD 0) else .rtr (g.neighbour r p) (facing p)

/-! ### Functions -/

def fidPresent (g : Gen) (fid : Nat) : Bool :=
  let n := fid % 4096
  match fid / 4096 with
  | 1 => g.hasRouter n
  | 2 => n == 0
  | 3 => g.hasNi n
  | 4 => g.hasEngine n
  | 5 => g.hasPort n
  | 6 => n == 0
  | 7 => n == 0
  | _ => false

/-- The units of a kind, as FUNC_IDs. -/
def unitsOf (g : Gen) (kind : Nat) : List Nat :=
  match kind with
  | 1 => g.routers.map (0x1000 + ·)
  | 3 => g.nis.map fun n => 0x3000 + n.loc
  | 4 => (List.range g.engineCount).map (0x4000 + ·)
  | 5 => g.ports.map fun p => 0x5000 + p.p
  | _ => []

/-- The single units a function is made of (R474). -/
def membersOf (g : Gen) (fid : Nat) : List Nat :=
  match fid / 4096 with
  | 2 => unitsOf g 1
  | 7 => unitsOf g 4 ++ unitsOf g 3 ++ unitsOf g 5 ++ unitsOf g 1
  | _ => [fid]

/-- State of a unit, by FUNC_ID. The pricking function is STOPPED only in IDLE (R198). -/
def Mach.fsOf (m : Mach) (g : Gen) (fid : Nat) : FState :=
  let n := fid % 4096
  match fid / 4096 with
  | 1 => (m.rt g n).fs
  | 3 => (m.ni n).fs
  | 4 => (m.eng n).fs
  | 5 => (m.port n).fs
  | 6 => if m.prk.st = .idle then .stopped else if m.prk.stopping then .stopping else .running
  | _ => .stopped

def Mach.allStopped (m : Mach) (g : Gen) (fids : List Nat) : Bool := fids.all fun f => m.fsOf g f == .stopped

/-- Whether every function that owns an object is STOPPED (R11, R19, R94, R129, R201, R350, R435). -/
def Mach.ownerStopped (m : Mach) (g : Gen) : Owner → Bool
  | .func f => m.allStopped g (membersOf g f)
  | .instance_ => m.allStopped g (unitsOf g 3 ++ unitsOf g 5)
  | .group n => bit (m.reg g (key (0x2300 + n / 256) (n % 256))) 1
  | .engines => m.allStopped g (unitsOf g 4)
  | .domain d =>
    m.allStopped g ((g.routers.filter fun r => g.region r == d).map (0x1000 + ·) ++
      (g.nis.filter fun n => n.dom == d).map fun n => 0x3000 + n.loc)

/-- Put every pending RWS value that `p` picks into force (R521). -/
def Mach.apply (m : Mach) (p : Nat → Bool) : Mach := { m with inForce := m.inForce.filter fun (k, _) => !p k }

/-! ### Logs (R454, R455, R527) -/

/-- Severity of a cause code (R454, cause table): 0 CORRECTED, 1 RECOVERABLE, 2 PORT_FATAL, 3 INSTANCE_FATAL. -/
def severity (cause : Nat) : Nat :=
  if cause = 0x01 then 0
  else if [0x04, 0x0F, 0x10, 0x12, 0x13, 0x1B].contains cause then 2
  else if cause = 0x1C then 3
  else 1

/-- A record (R454). -/
def logRecord (cause port : Nat) (fid : BitVec 16) (aux ns : Nat) : Nat :=
  severity cause * 2 ^ 126 + 2 ^ 125 + cause * 2 ^ 112 + port * 2 ^ 109 + fid.toNat * 2 ^ 80 + aux % 65536 * 2 ^ 64 + ns % 2 ^ 64

/-- The ERR_PEND_* object and bit of a log (R457); the instance log has none. -/
def pendBit (idx : Nat) : Option (Nat × Nat) :=
  if 0x9100 ≤ idx && idx < 0x9200 then some (key 0x9800 7, idx - 0x9100)
  else if 0x9200 ≤ idx && idx < 0x9300 then some (key 0x9800 8, idx - 0x9200)
  else if 0x9300 ≤ idx && idx < 0x9400 then some (key 0x9800 9, idx - 0x9300)
  else if 0x9400 ≤ idx && idx < 0x9500 then some (key 0x9800 10, idx - 0x9400)
  else none

def LogSt.reset : LogSt := ⟨none, [0, 0, 0, 0], [0, 0, 0, 0], ⟨0, (0, 0), [], [0, 0, 0, 0]⟩⟩

def Mach.log (m : Mach) (idx : Nat) : LogSt := m.logs.getD idx LogSt.reset

/-- What has arrived at a log in this ao cycle. -/
def Mach.logNow (m : Mach) (g : Gen) (idx : Nat) : LogCycle :=
  let c := (m.log idx).now
  if c.cycle = m.aoCycle then c else ⟨m.aoCycle, (m.reg g (key idx 1), m.reg g (key idx 2)), [], [0, 0, 0, 0]⟩

def Mach.setLogNow (m : Mach) (idx : Nat) (c : LogCycle) : Mach :=
  { m with logs := m.logs.put idx { m.log idx with now := c } }

/-- Remember `n` events of this ao cycle. -/
def noteCount (g : Gen) (m : Mach) (idx sev n : Nat) : Mach :=
  let c := m.logNow g idx
  m.setLogNow idx { c with cnts := c.cnts.set sev (c.cnts.getD sev 0 + n) }

/-- Count `n` events of severity `sev` at a log: its count, its ERR_PEND bit and ERR_PENDING (R454, R455). -/
def countEvents (g : Gen) (m : Mach) (idx sev n : Nat) : Mach :=
  if n = 0 then m
  else
    let m := (noteCount g m idx sev n).addSat g (key idx (3 + sev)) n
    let m := match pendBit idx with
      | some (k, b) => m.orReg g k (2 ^ b)
      | none => m
    m.orReg g (key 0x9800 1) (2 ^ sev)

/-- A record into ERR_FIRST when that is empty, else into ERR_SECOND when that is empty or holds a lower severity (R454). -/
def placeRecord (x : Nat × Nat) (rec : Nat) : Nat × Nat :=
  if x.1 = 0 then (rec, x.2) else if x.2 = 0 || x.2 / 2 ^ 126 < rec / 2 ^ 126 then (x.1, rec) else x

/-- A record among those of one ao cycle: descending severity, then ascending cause (R454). -/
def insertRecord (rec : Nat) : List Nat → List Nat
  | [] => [rec]
  | r :: rs =>
    if r / 2 ^ 126 < rec / 2 ^ 126 || (r / 2 ^ 126 == rec / 2 ^ 126 && fld rec 119 112 < fld r 119 112) then rec :: r :: rs
    else r :: insertRecord rec rs

/-- ERR_FIRST and ERR_SECOND of a log, from what arrived there in one ao cycle. -/
def putRecords (m : Mach) (idx : Nat) (c : LogCycle) : Mach :=
  let x := c.recs.foldl placeRecord c.before
  ((m.setLogNow idx c).setReg (key idx 1) x.1).setReg (key idx 2) x.2

/-- Write a record into a log under its floor, in its turn among those of its ao cycle (R454). -/
def recordEvent (g : Gen) (m : Mach) (idx rec : Nat) : Mach :=
  if rec / 2 ^ 126 < m.reg g (key idx 7) % 4 then m
  else
    let c := m.logNow g idx
    putRecords m idx { c with recs := insertRecord rec c.recs }

/-- Place a packet of the Shuttle on its NI's ingress, when that NI runs and the instance is not isolated. -/
def shuttleSend (m : Mach) (p : Pkt) : Option Mach :=
  if (m.ni 0).fs = .running && !m.sh.isolated then
    some (m.updEp 0 fun e => { e with ingress := e.ingress.put p.hdr.channel (e.ingress.getD p.hdr.channel [] ++ [p]) })
  else none

/-- Notify a rise of ERR_PENDING bits (R455): one MSG_INTR when some risen bit is selected in ERR_NOTIFY. -/
def notifyRise (g : Gen) (m : Mach) (before : Nat) : Mach :=
  let risen := (m.reg g (key 0x9800 1)) &&& (15 - before % 16)
  let n := m.reg g (key 0x9800 3)
  let sel := risen &&& (n % 16)
  if sel = 0 then m
  else
    let h := { Hdr.zero with dest := BitVec.ofNat 16 (n / 65536), src := m.fid g 0, vn := 4, cls := 1, cmd := 0x82,
                             addr := BitVec.ofNat 56 (fld n 15 8 * 256 + sel) }
    (shuttleSend m ⟨h, [], false, []⟩).getD (m.addSat g (key 0x9800 11) 1)

/-- The domain whose bridge carries a unit's events to the always-on domain. -/
def logDomain (g : Gen) (idx : Nat) : Option Nat :=
  if 0x9100 ≤ idx && idx < 0x9200 then some (g.region (idx - 0x9100))
  else if 0x9200 ≤ idx && idx < 0x9300 then some (g.niDom (idx - 0x9200))
  else if 0x9300 ≤ idx && idx < 0x9400 then (g.port? (idx - 0x9300)).map (·.dom)
  else none

/-- A pulse merged with one not yet acknowledged (R409): OVERRUN of the domain. -/
def overrun (g : Gen) (m : Mach) (d : Nat) : Mach :=
  if d = 0 then m else (m.orReg g (key (0x8100 + d) 7) 1).addWrap g (key (0x8100 + d) 11) 1

/-- A value crosses the bridge of domain d by double sampling (R407). Where eight attempts fail to agree, which is a free value
(log 71), the transfer completes through the queue: FALLBACK and FALLBACK_USED (R408). -/
def crossValue (g : Gen) (m : Mach) (d : Nat) : Mach :=
  if d = 0 then m
  else
    let n := m.fresh
    let m := { m with fresh := n + 1 }
    if Config.fallback n then (m.orReg g (key (0x8100 + d) 7) 2).addWrap g (key (0x8100 + d) 12) 1 else m

/-- An event of a unit: it waits to cross into the always-on domain (R527). Events of the instance log are detected there
and apply at once. A log of an isolated instance is frozen (R448). -/
def logEv (g : Gen) (m : Mach) (idx cause : Nat) (port : Nat := 0) (fid : BitVec 16 := 0) (aux : Nat := 0) : Mach :=
  let rec_ := logRecord cause port fid aux m.ns
  let sev := severity cause
  if m.sh.isolated then m
  else if idx = 0x9000 then
    let before := m.reg g (key 0x9800 1)
    notifyRise g (recordEvent g (countEvents g m idx sev 1) idx rec_) before
  else
    let l := m.log idx
    let w := match l.waiting with
      | none => some rec_
      | some old => if old / 2 ^ 126 < sev then some rec_ else some old
    let m := if l.counts = l.applied then m else ((logDomain g idx).map (overrun g m)).getD m
    { m with logs := m.logs.put idx { l with waiting := w, counts := l.counts.set sev (l.counts.getD sev 0 + 1) } }

def logR (r : Nat) : Nat := 0x9100 + r
def logN (l : Nat) : Nat := 0x9200 + l
def logP (p : Nat) : Nat := 0x9300 + p
def logD (d : Nat) : Nat := 0x9400 + d

/-- MG_RSP (R472): OP, MG_STATUS, SIZE and data. -/
def mgRspMsg (g : Gen) (op status : Nat) (data : List Byte) : List Byte :=
  vendorMsg g.vendorIana 2 (BitVec.ofNat 8 op :: BitVec.ofNat 8 status :: (toBytes data.length 2 ++ data))

/-! ### Packets the NI makes of itself -/

/-- Place a packet the NI generates (a response, a POSTED_ACK, a NACK_RETRY) in its internal injection queue. -/
def Mach.sendInternal (m : Mach) (l : Nat) (p : Pkt) : Mach :=
  m.updTx l fun t => { t with internal := t.internal ++ [p] }

/-- The record of a posted packet that NI l discards as unreachable (R22, R98); a response or a fabric-internal packet leaves
none (log 67). -/
def unreachableAtNi (g : Gen) (m : Mach) (l : Nat) (h : Hdr) : Mach :=
  if !h.mcast && (isResponse h.c || isInternal h.c) then m else logEv g m (logN l) 0x08 0 h.dest h.c

/-! ### Domains -/

/-- The units of domain d act: its clock runs, in P0 or CLOSING, and it is not in reset (R410, R417, R427). -/
def Mach.awake (m : Mach) (d : Nat) : Bool := ((m.dom d).st == .p0 || (m.dom d).st == .closing) && !(m.dom d).inReset

end Sys2Proof.Machine
end

