-- ==== Sys2Proof/Machine/Route.lean ====
section
/-! DEFINITION. Routing: the target of a packet (R93-R98), dimension order and the dateline (R102-R104), legality (R100,
R105, R442), the reservation banks and gating (R162-R164, R194, R209), and dead ports (R136, R441). -/

namespace Sys2Proof.Machine

open Sys2Proof

/-! ### Targets -/

/-- Table error in force at a unit: an uncorrectable entry that the Shuttle has not rewritten (R446). -/
def Mach.badEntry (m : Mach) (log code k : Nat) : Bool :=
  m.sh.badEntries.any fun e => e.log == log && e.code == code && e.key == k

def Mach.anyBad (m : Mach) (log code : Nat) : Bool := m.sh.badEntries.any fun e => e.log == log && e.code == code

/-- A function that is STOPPING or STOPPED. -/
def FState.down (f : FState) : Bool := f == .stopping || f == .stopped

/-- Trained channels of a port (R399). -/
def Mach.trainedChans (m : Mach) (p : Nat) : List Nat := (List.range 6).filter fun c => bit (m.port p).trained c

/-- Live channels of a port (R97). -/
def Mach.liveChans (m : Mach) (g : Gen) (p : Nat) : List Nat :=
  if (m.port p).fs.down then [] else (m.trainedChans p).filter fun c => !(m.rt g (g.zRouter p c)).fs.down

/-- h of R97. -/
def flowHash (src dest : BitVec 16) (vn cls : Nat) : Nat :=
  let s := src.toNat
  let d := dest.toNat
  (s / 256) ^^^ (s % 256) ^^^ (d / 256) ^^^ (d % 256) ^^^ (vn * 4 ||| cls)

/-- NODE_ROUTE of node n in force. -/
def Mach.nodeRoute (m : Mach) (g : Gen) (n : Nat) : Nat := m.cfg g (key (0x2100 + n / 256) (n % 256))

/-- The exit port a router chooses for a node, and whether at level 3 (R95). -/
def exitPort (g : Gen) (m : Mach) (r n : Nat) : Option (Nat × Bool) :=
  let e := m.nodeRoute g n
  if !bit e 15 || m.badEntry (logR r) 1 (key (0x2100 + n / 256) (n % 256)) then none
  else
    let cands := fld e 14 12 :: (if bit e 11 then [fld e 10 8] else [])
    let rt := m.rt g r
    let alive := cands.filter fun p => bit rt.alive p
    let live := alive.filter fun p => !(m.liveChans g p).isEmpty
    match live.find? fun p => !bit rt.avoid p with
    | some p => some (p, false)
    | none =>
      match live with
      | p :: _ => some (p, false)
      | [] => alive.head?.map fun p => (p, true)

/-- The target of a unicast packet, resolved at router r: a router and one of its ports (R93). -/
def resolve (g : Gen) (m : Mach) (r : Nat) (h : Hdr) : Option (Nat × Nat) :=
  if fidNode h.dest = m.node g then
    let l := if fidLocal h.dest = 0x7F && h.v = 5 then 0 else fidLocal h.dest
    if g.hasNi l then some (g.niRouter l, g.niPort l) else none
  else
    match exitPort g m r (fidNode h.dest) with
    | none => none
    | some (p, level3) =>
      let lc := if level3 then m.trainedChans p else m.liveChans g p
      match lc[flowHash h.src h.dest h.v h.k % lc.length]? with
      | some c => some (g.zRouter p c, 6)
      | none => none

/-- LA_PORT for the next router (R103): the output there, when the packet leaves on a torus port; otherwise the field
stays as it is. -/
def nextLa (g : Gen) (r out : Nat) (target : Nat × Nat) (h : Hdr) : BitVec 3 :=
  if out ≤ 3 then BitVec.ofNat 3 (outPort g (g.neighbour r out) target.1 target.2) else h.laPort

/-- DATELINE on the link out of port `out` of a packet that arrived on port `inp` (R104). -/
def datelineOut (g : Gen) (r inp out : Nat) (old : Bool) : Bool :=
  if out ≤ 3 then
    g.isDateline r out || (old && inp ≤ 3 && (inp / 2 == out / 2))
  else false

/-- A unicast header's route is illegal at router r: R105, or LA_PORT absent (R442). -/
def illegalRoute (g : Gen) (r inp out : Nat) : Bool :=
  !g.hasRouterPort r out || (inp ≤ 1 && (out == 2 || out == 3)) || out == inp

/-- PORT_DIR: 1 UP, 2 DOWN, 0 unknown (R99). -/
def Mach.portDir (m : Mach) (g : Gen) (p : Nat) : Nat := m.reg g (key 0x2010 (p + 1))

/-- R100 fails for a packet that entered through port a and leaves through port b. -/
def levelFault (g : Gen) (m : Mach) (a b : Nat) : Bool := a == b || (m.portDir g a == 1 && m.portDir g b == 1)

/-! ### Groups -/

def groupKey (n : Nat) : Nat := key (0x2300 + n / 256) (n % 256)

/-- GROUP_ENTRY of group n at router r, in force. -/
def Mach.groupEntry (m : Mach) (g : Gen) (n r : Nat) : Nat := m.cfg g (key (0x2400 + n) r)

def Mach.groupEnabled (m : Mach) (g : Gen) (n : Nat) : Bool := bit (m.reg g (groupKey n)) 0

def groupPorts (e : Nat) : List Nat := (List.range 7).filter fun p => bit e p

/-! ### Reservation banks -/

/-- Key of entry j of output p of router r. -/
def rsvKey (r p j : Nat) : Nat := key (0x3800 + 8 * r + p) j

structure Rsv where
  valid : Bool
  vc13 : Bool
  inPort : Nat
  len : Nat
  start : Nat
  id : Nat
deriving DecidableEq, Repr

/-- The fields of an entry (R163). -/
def Rsv.ofNat (w : Nat) : Rsv := ⟨bit w 31, bit w 30, fld w 29 27, fld w 26 24, fld w 23 12, fld w 11 0⟩

/-- The VALID entries a bank holds for one output. -/
def bankEntries (bank : Tab Nat) (r p : Nat) : List Rsv :=
  (bank.filter fun (k, w) => k / 256 == 0x3800 + 8 * r + p && bit w 31).map fun (_, w) => Rsv.ofNat w

/-- The bank and period active in slot `sc` (R194). -/
def Mach.bankAt (m : Mach) (sc : Nat) : Tab Nat × Nat :=
  if (m.prk.st = .armed || m.prk.st = .activeArmed) && m.prk.slot ≤ sc then (m.prk.armed, m.prk.armedPeriod)
  else (m.prk.active, m.prk.period)

/-- An entry reserves slot `sc` (R162, R164). -/
def Rsv.covers (e : Rsv) (p sc : Nat) : Bool := p != 0 && (sc % p + p - e.start % p) % p < e.len

/-- Slot `sc` of output p of router r is reserved. -/
def Mach.reserved (m : Mach) (r p sc : Nat) : Bool :=
  let (b, per) := m.bankAt sc
  (bankEntries b r p).any fun e => e.covers per sc

/-- A packet of n flits may start on output p of router r now (R209): what is sent in an fc is on the link in the next slot. -/
def Mach.fits (m : Mach) (r p n : Nat) : Bool := (List.range n).all fun j => !m.reserved r p (m.time.sc + 1 + j)

/-- Slots reserved on the injection link of NI l: those entries of its router whose IN_PORT is its port, one slot earlier
than the output (R167, R171). -/
def Mach.injReserved (m : Mach) (g : Gen) (l sc : Nat) : Bool :=
  let (b, per) := m.bankAt sc
  (List.range 7).any fun p =>
    (bankEntries b (g.niRouter l) p).any fun e => e.inPort == g.niPort l && e.covers per (sc + 1)

def Mach.injFits (m : Mach) (g : Gen) (l n : Nat) : Bool := (List.range n).all fun j => !m.injReserved g l (m.time.sc + 1 + j)

/-- The longest run of free slots of a link, cyclic, capped at 5 (R212). -/
def longestRun (per : Nat) (res : Nat → Bool) : Nat :=
  if per = 0 then 5
  else (([5, 4, 3, 2, 1].find? fun n => (List.range per).any fun s => (List.range n).all fun j => !res (s + j)).getD 0)

/-! ### Dead ports -/

/-- Domain of the unit behind port p of router r. -/
def Gen.farDomain (g : Gen) (r p : Nat) : Nat :=
  if p ≤ 3 then g.region (g.neighbour r p)
  else if p ≤ 5 then g.niDom ((g.niAt r p).getD 0)
  else ((g.zAt r).bind fun (q, _) => (g.port? q).map (·.dom)).getD 0

/-- Whether a port of a router is dead (R136): its link, its bridge partner, or a Z port whose Ndesil port is not alive. -/
def portDead (g : Gen) (m : Mach) (r p : Nat) : Bool :=
  (m.outp g r p).dead || (m.dom (Gen.farDomain g r p)).dead ||
    (p == 6 && !(((g.zAt r).map fun (q, _) => bit (m.reg g (key 0x2000 4)) q).getD false))

/-! ### Packets a router makes -/

/-- Input 7: where a router's own packets (generated completions, PARTIAL_DELIVERY) wait for allocation (log 15). -/
def ownInput : Nat := 7

/-- Queue a packet of router r's own making; one that has no route is lost (R445). -/
def routerSend (g : Gen) (m : Mach) (r : Nat) (p : Pkt) : Mach :=
  match resolve g m r p.hdr with
  | none => m
  | some t =>
    let out := outPort g r t.1 t.2
    let p := { p with hdr := { p.hdr with laPort := nextLa g r out t p.hdr } }
    let b : BufPkt := { pkt := p, need := p.flits, got := p.flits, todo := [out], live := [], freed := p.flits, asked := false }
    m.updR r fun x =>
      let inp := x.ins.getD ownInput InPort.reset
      { x with ins := x.ins.put ownInput { inp with vcs := inp.vcs.put (p.hdr.vc) (inp.vcs.getD p.hdr.vc [] ++ [b]) } }

/-- The completion to a discarded non-posted request, from router r (R98, R444). -/
def routerRefuse (g : Gen) (m : Mach) (r : Nat) (h : Hdr) (status : Nat) : Mach :=
  if h.np && !h.mcast then routerSend g m r (generatedPkt h (m.node g) status) else m

/-- CSF of PARTIAL_DELIVERY (R137). -/
def partialPkt (h : Hdr) (self : BitVec 16) (cause repKind repNode repLocal x y missed : Nat) : Pkt :=
  let csf := cause * 2 ^ 244 + h.dest.toNat % 1024 * 2 ^ 234 + h.seq.toNat * 2 ^ 218 + h.v * 2 ^ 215 + h.k * 2 ^ 213 +
    repKind * 2 ^ 212 + repNode * 2 ^ 203 + repLocal * 2 ^ 196 + x * 2 ^ 192 + y * 2 ^ 188 + missed * 2 ^ 181
  ({ hdr := { Hdr.zero with dest := h.src, src := self, vn := 2, cls := 1, cmd := 0xF4, csf := BitVec.ofNat 215 (csf / 2 ^ 32) },
     data := [], badHdr := false, badData := [] } : Pkt).seal

/-- A router's report of ports it abandoned (R135, R136). -/
def routerPartial (g : Gen) (m : Mach) (r : Nat) (h : Hdr) (cause : Nat) (missed : List Nat) : Mach :=
  let m := m.cntR g r (if cause = 0 then 0x11 else 0x12)
  routerSend g m r (partialPkt h (m.fid g 0) cause 0 (m.node g) 0 (r % 16) (r / 16) ((missed.map (2 ^ ·)).sum))

/-- A packet discarded at router r because its destination is unreachable (R22, R98, R132): a non-posted request is refused; a
posted write or message, and any multicast packet, is logged. DESIGN CHOICE (log 67): a response or a fabric-internal packet, of
which the rules say nothing, is counted only. -/
def routerUnreachable (g : Gen) (m : Mach) (r : Nat) (h : Hdr) : Mach :=
  let m := m.cntR g r 0x0C
  if h.np && !h.mcast then routerRefuse g m r h stUnreachable
  else if h.mcast || !(isResponse h.c || isInternal h.c) then logEv g m (logR r) 0x08 0 h.dest h.c
  else m

end Sys2Proof.Machine
end

