-- ==== Sys2Proof/Machine/Nic.lean ====
section
/-! DEFINITION. What every part of an NI uses: its settings, the packets it makes of itself, completions on their way to an
agent, an engine context or the Shuttle (R251-R253, R325, R473), what a presentation counts (R498, R503-R505), and the release and failure of flows (R262, R264). -/

namespace Sys2Proof.Machine

open Sys2Proof

/-- Defaults of R89 and R271, which the Shuttle's NI, having no objects (R270), keeps. -/
def niDefault : Nat → Nat
  | 0x04 => 4096
  | 0x10 => 1000
  | 0x11 => 100
  | 0x12 => 2000
  | 0x13 => 10000
  | 0x14 => 100
  | 0x15 => 3
  | 0x16 => 40
  | _ => 0

/-- A setting of NI l in force. -/
def niSet (g : Gen) (m : Mach) (l sub : Nat) : Nat := if l = 0 then niDefault sub else m.cfg g (niKey l sub)

def flowIdle (g : Gen) (m : Mach) (l : Nat) : Nat := usUnits (niSet g m l 0x10)
def npTimeout (g : Gen) (m : Mach) (l : Nat) : Nat := usUnits (niSet g m l 0x13)
def retxTimeoutLen (g : Gen) (m : Mach) (l : Nat) : Nat := usUnits (niSet g m l 0x14)
def ackDelayLen (g : Gen) (m : Mach) (l : Nat) : Nat := nsUnits (niSet g m l 0x16)
def nackRepeatLen (g : Gen) (m : Mach) (l : Nat) : Nat := nsUnits (niSet g m l 0x12)

/-- d of R75: how far s is after e, modulo 65,536. -/
def seqDist (s e : Nat) : Nat := (s + 65536 - e % 65536) % 65536

/-- s is behind x in a flow (R75). -/
def seqBefore (s x : Nat) : Bool := 1 ≤ seqDist x s && seqDist x s ≤ 32768

/-! ### Presentation -/

/-- The bucket of a latency (R503), with base B; both in 1/65,536 ns. -/
def histBucket (lat base : Nat) : Nat :=
  if lat < base then 0
  else ((List.range' 1 14).find? fun b => lat < base * 2 ^ b).getD 15

/-- A sample entry (R505). -/
def sampleEntry (g : Gen) (m : Mach) (l : Nat) (r : ReqInfo) (rsp : Hdr) : Nat :=
  let h := r.hdr
  let at_ := g.niRouter l
  let t := resolve g m at_ h
  let hops := (t.map fun (x, p) => (routeFrom g at_ x p 40).length).getD 0
  let cross := fidNode h.dest ≠ m.node g
  let exit := ((t.bind fun (x, _) => g.zAt x).map (·.1)).getD 0
  2 ^ 255 + r.split.toNat * 2 ^ 254 + rsp.status * 2 ^ 250 + h.c * 2 ^ 242 + h.v * 2 ^ 239 + h.k * 2 ^ 237 +
  h.vport.toNat * 2 ^ 227 + h.tag.toNat * 2 ^ 215 + hops % 32 * 2 ^ 210 + (if cross then 2 ^ 209 + exit * 2 ^ 206 else 0) +
  h.dest.toNat * 2 ^ 190 + h.a * 2 ^ 134 + rsp.injTime.toNat * 2 ^ 102 + m.ns % 2 ^ 32 * 2 ^ 64 + r.issue / 65536 % 2 ^ 64

/-- What the presentation of a completion counts and records (R498, R503, R504). -/
def countCompletion (g : Gen) (m : Mach) (l : Nat) (r : ReqInfo) (rsp : Hdr) : Mach :=
  let lat := m.ft - r.issue
  let m := m.cntN g l 0x11
  let m := if rsp.status = stOk then m else m.cntN g l 0x12
  let m := m.cntN g l 0x3E (lat / 65536)
  let hc := m.reg g (key (0xA200 + l) 0x85)
  let m := if g.isInit l && bit hc (12 + rsp.k) && (!bit hc 11 || hc % 1024 == rsp.vport.toNat) then
      let k := key (0xA200 + l) (0x90 + histBucket lat (nsUnits (hc / 65536)))
      m.setReg k ((m.reg g k + 1) % 2 ^ 48)
    else m
  if r.sampled then
    let w := m.reg g (key (0xA200 + l) 0x84)
    ((m.setReg (key (0xA300 + l) (w % 256)) (sampleEntry g m l r rsp)).addWrap g (key (0xA200 + l) 0x84) 1).cntN g l 0x3D
  else m

/-- Even parity over each 64 bits of a payload (R238). -/
def parity8 (d : Payload) : BitVec 8 :=
  BitVec.ofNat 8 (((List.range 8).map fun i => parity (fld d.toNat (64 * i + 63) (64 * i)) * 2 ^ i).sum)

/-- A packet on the egress bus (R238, R241): the header first, then the data flits; hy_ep_e_drop stands on the tail. -/
def egressOf (l ch : Nat) (p : Pkt) (drop : Bool) : Out :=
  let n := p.flits
  .egress l ((List.range n).map fun i =>
    let d := if i = 0 then p.hdr.bits else p.data.getD (i - 1) 0
    { ch := BitVec.ofNat 3 ch, ftype := if n = 1 then 3 else if i = 0 then 1 else if i + 1 = n then 2 else 0, fidx := BitVec.ofNat 3 i,
      drop := drop && i + 1 == n, data := d, par := parity8 d })

/-- A packet is presented on the egress bus of NI l (R241). -/
def presentNow (g : Gen) (m : Mach) (l : Nat) (e : EjPkt) : Mach :=
  let h := e.pkt.hdr
  let m := m.emit (egressOf l h.channel e.pkt e.drop)
  if e.drop then m
  else
    let m := (m.cntN g l (0x06 + h.v)).cntN g l 0x0D h.n
    match e.req with
    | some r => countCompletion g m l r h
    | none => m

/-- The head VN M packet of NI l waits for credit: its M_EJECT_TIMEOUT interval runs, with the length of its start (R73, R89);
one that has its credits, or none at all, runs no interval. -/
def mWatch (g : Gen) (m : Mach) (l : Nat) : Mach :=
  match (m.ni l).ep.eject.getD 4 [] with
  | x :: _ =>
    if x.pkt.flits ≤ (m.ni l).ep.egCr.getD 4 0 then m.stopTimer (.mEject l)
    else if (m.deadline (.mEject l)).isSome then m
    else m.startTimer (.mEject l) (usUnits (niSet g m l 0x11))
  | [] => m.stopTimer (.mEject l)

/-- A packet joins an ejection FIFO (R255). -/
def pushEject (g : Gen) (m : Mach) (l vn : Nat) (e : EjPkt) : Mach :=
  let m := m.updEp l fun x => { x with eject := x.eject.put vn (x.eject.getD vn [] ++ [e]) }
  if vn = 4 then mWatch g m l else m

/-- Give credits back for flits that came over the ejection link (R255). -/
def ejectCredits (m : Mach) (l : Nat) (p : Pkt) (cred : Bool) : Mach :=
  if cred && p.hdr.k ≠ 0 then m.updRx l fun x => { x with credits := x.credits ++ List.replicate p.flits (2 * p.hdr.v) } else m

/-- A completion for the agent: class 0 goes straight to channel 7 (R255), the rest to the ejection FIFO of VN P. A port
that is not OPEN presents nothing. -/
def completeAgent (g : Gen) (m : Mach) (l : Nat) (rsp : Pkt) (req : Option ReqInfo) (cred : Bool) : Mach :=
  if (m.ni l).ep.st ≠ .opened then ejectCredits m l rsp cred
  else if rsp.hdr.k = 0 then presentNow g m l ⟨rsp, false, req, false⟩
  else pushEject g m l 2 ⟨rsp, false, req, cred⟩

/-- The completion of an engine context's send enters its receive queue (R325). -/
def completeEngine (m : Mach) (i c : Nat) (rsp : Pkt) : Mach :=
  m.updCtx i c fun x => { (if x.st = .waitSend then x.wake m.now else x) with rq := x.rq ++ [rsp], sends := x.sends - 1 }

/-- MG_STATUS of an RSP_MGMT (R466). -/
def Hdr.mgStatus (h : Hdr) : Nat := h.csfFld 242 235

/-- An answer to one of the Shuttle's own requests. DEDUCED (log 18): any fabric STATUS but OK is no answer to a forwarded
MG_REQ, so the host reads BUSY (R473). -/
def completeShuttle (g : Gen) (m : Mach) (id : Nat) (rsp : Pkt) : Mach :=
  let ok := rsp.hdr.c == 0x93 && rsp.hdr.status == stOk
  let m' := m.updSh fun s => { s with calls := s.calls.del id }
  match m.sh.calls.get? id with
  | none => m
  | some (.forward q) =>
    (m'.stopTimer (.forward id)).emit (.mctp (mgRspMsg g q.op.toNat (if ok then Hdr.mgStatus rsp.hdr else mgQueueFull) (if ok then rsp.bytes.take rsp.hdr.n else [])))
  | some (.copy b node) =>
    let good := ok && Hdr.mgStatus rsp.hdr == 0
    m'.updSh fun s => { s with bcast := s.bcast.upd b fun x =>
      { x with waiting := x.waiting.erase node, ok := x.ok + good.toNat, fail := x.fail + (!good).toNat } }
  | some (.squash l node) =>
    m'.updN l fun n => { n with job := n.job.map fun j => { j with nodes := j.nodes.erase node, unreached := j.unreached || !ok } }

/-- A completion reaches the originator of its request; that of an orphaned tag is consumed (R268, R294, R347). -/
def completeTo (g : Gen) (m : Mach) (l : Nat) (org : Origin) (orphan : Bool) (rsp : Pkt) (req : ReqInfo) (cred : Bool) : Mach :=
  if orphan then ejectCredits m l rsp cred
  else match org with
    | .agent => completeAgent g m l rsp (some req) cred
    | .engine i c => completeEngine (ejectCredits m l rsp cred) i c rsp
    | .shuttle id => completeShuttle g (ejectCredits m l rsp cred) id rsp

/-- The completion an NI makes for a request of its own side. -/
def ownRsp (g : Gen) (m : Mach) (l : Nat) (h : Hdr) (status : Nat) : Pkt := rspPkt { h with src := m.fid g l } (m.fid g l) status

/-- Refuse a non-posted request before it is issued, with a status: one completion with the agent's tag. -/
def refuseOwn (g : Gen) (m : Mach) (l : Nat) (org : Origin) (h : Hdr) (status issue : Nat) : Mach :=
  if h.np then completeTo g m l org false (ownRsp g m l h status) ⟨h, issue, false, false⟩ false else m

/-! ### Tags and split requests -/

def freeTag (m : Mach) (l tag : Nat) : Mach := m.updTab l fun t => { t with tags := t.tags.del tag }

/-- The tag of a request that has not been issued runs no timer: it waits in the held store, or at a head with its step 2
resources (R248). -/
def tagHeld (m : Mach) (l tag : Nat) : Bool :=
  ((m.ni l).tx.held.any fun x => x.tags.contains tag) || ((m.ni l).tx.kept.any fun (_, k) => k.tags.contains tag)

/-- One completion of a split request (R251), made from the response `rsp` that came last. -/
def mergedRsp (s : SplitRec) (agentTag : BitVec 12) (rsp : Pkt) : Pkt :=
  let lo := s.lowStatus.getD stOk
  let st := if lo ≠ stOk then lo else s.highStatus.getD stOk
  let h := { rsp.hdr with tag := agentTag, addr := s.req.hdr.addr, be := 0 }
  if s.read && st = stOk then
    mkPkt { h with cmd := 0x91, len := BitVec.ofNat 9 s.total, csf := 0 } (s.lowData ++ s.highData)
  else ⟨{ h with cmd := 0x90, len := 0, csf := BitVec.ofNat 215 (st % 16 * 2 ^ 211) }, [], false, []⟩

/-- The outcome of one part of a split request: one completion when both are known. -/
def splitOutcome (g : Gen) (m : Mach) (l : Nat) (e : TagEnt) (rsp : Pkt) (cred : Bool) : Mach :=
  match (m.ni l).tab.splits.get? e.low with
  | none => ejectCredits m l rsp cred
  | some s =>
    let st := rsp.hdr.status
    let s := if e.part = 1 then { s with lowStatus := some st, lowData := rsp.content } else { s with highStatus := some st, highData := rsp.content }
    if s.lowStatus.isSome && s.highStatus.isSome then
      let m := m.updTab l fun t => { t with splits := t.splits.del e.low }
      let m := ejectCredits m l rsp cred
      completeTo g m l e.org e.orphan (mergedRsp s e.agentTag rsp) { s.req with sampled := e.sampled || s.req.sampled } false
    else ejectCredits (m.updTab l fun t => { t with splits := t.splits.put e.low s }) l rsp cred

/-- The outcome of a tagged request, whole or part of a split one. -/
def tagOutcome (g : Gen) (m : Mach) (l : Nat) (e : TagEnt) (rsp : Pkt) (cred : Bool) : Mach :=
  if e.part = 0 then
    completeTo g m l e.org e.orphan { rsp with hdr := { rsp.hdr with tag := e.agentTag } } ⟨e.req, e.issue, false, e.sampled⟩ cred
  else splitOutcome g m l e rsp cred

/-! ### The retransmit store -/

/-- Packets that have taken their space of the retransmit store and are not yet in it: in the held store, or at the head of a
channel with their step 2 resources (R247, R248). -/
def retxTaken (n : Ni) : List Pkt := n.tx.held.flatMap (·.parts) ++ n.tx.kept.flatMap (·.2.parts)

/-- Flits held, packets held in the retransmit store, or with their space there taken. -/
def retxFlits (n : Ni) : Nat := (n.tab.retx.map (·.pkt.flits)).sum + ((retxTaken n).map (·.flits)).sum
def retxPkts (n : Ni) : Nat := n.tab.retx.length + (retxTaken n).length

/-- Packets of a flow that the NI holds, oldest first. -/
def heldOf (n : Ni) (k : FlowKey) : List Retx := n.tab.retx.filter fun x => x.pkt.hdr.flow == k

/-- Drop packets from the retransmit store and from the retransmission queue. -/
def dropRetx (m : Mach) (l : Nat) (p : Pkt → Bool) : Mach :=
  (m.updTab l fun t => { t with retx := t.retx.filter fun x => !p x.pkt }).updTx l fun t =>
    { t with retxQ := t.retxQ.filter fun x => !p x }

/-- Release what the arrival of SEQ x at the target shows delivered: x itself, when named, and everything before (R262). -/
def releaseTo (m : Mach) (l : Nat) (k : FlowKey) (x : Nat) : Mach :=
  dropRetx m l fun p => p.hdr.flow == k && (p.hdr.seq.toNat == x || seqBefore p.hdr.seq.toNat x)

/-- The flow fails (R264): held non-posted packets complete with RETRY_EXHAUSTED, posted ones are counted, one event is
logged, the flow is closed. -/
def failFlow (g : Gen) (m : Mach) (l : Nat) (k : FlowKey) : Mach :=
  let held := heldOf (m.ni l) k
  let oldest := (held.head?.map (·.pkt.hdr.seq.toNat)).getD 0
  let m := dropRetx m l fun p => p.hdr.flow == k
  let m := m.updTab l fun t => { t with src := t.src.map fun f => if f.key = k then { f with closed := true } else f }
  let m := held.foldl (fun m x =>
    let h := x.pkt.hdr
    if x.posted then
      let m := m.cntN g l 0x27
      if isCoherence h.c && l ≠ 0 then m.addWrap g (niKey l 0x30) 1 else m
    else match (m.ni l).tab.tags.get? h.tag.toNat with
      | some e =>
        let m := freeTag m l h.tag.toNat
        if e.fired then m else tagOutcome g m l e (ownRsp g m l h stRetryExhausted) false
      | none => m) m
  logEv g m (logN l) 0x06 0 k.dest oldest

/-! ### Packets an NI makes -/

/-- The class-0 source descriptors of NI l in the active bank, with their numbers (R169); one with an uncorrectable error
is absent (R446). -/
def c0Descs (m : Mach) (base l : Nat) : List (Nat × Nat) :=
  let (b, _) := m.bankAt m.time.sc
  (List.range 32).filterMap fun j =>
    let w := b.getD (key (base + l) j) 0
    if bit w 127 && !m.badEntry (logN l) 5 (key (base + l) j) then some (j, w) else none

/-- The class-0 source flow of NI l to a destination on a VN. -/
def c0Src (m : Mach) (l : Nat) (dest : BitVec 16) (vn : Nat) : Option (Nat × Nat) :=
  (c0Descs m 0x3400 l).find? fun (_, w) => fld w 119 104 == dest.toNat && fld w 125 123 == vn

/-- RSV_A and RSV_B of a descriptor. -/
def rsvA (w : Nat) : Nat := fld w 103 92
def rsvB (w : Nat) : Nat := fld w 91 80

/-- Place a packet in both thread queues of source descriptor j under its next SEQ (R174); a flow without thread B has
one queue (R180). -/
def c0Queue (m : Mach) (l j w : Nat) (p : Pkt) : Mach :=
  m.updTx l fun t =>
    let p := { p with hdr := { p.hdr with seq := BitVec.ofNat 16 (t.c0seq.getD j 0) } }
    let q := t.c0q.put (2 * j) p
    { t with c0q := if rsvB w = 0 then q else q.put (2 * j + 1) p, c0seq := t.c0seq.put j ((t.c0seq.getD j 0 + 1) % 65536) }

/-- Both thread queues of a flow are empty. -/
def c0Empty (m : Mach) (l j : Nat) : Bool := !(m.ni l).tx.c0q.has (2 * j) && !(m.ni l).tx.c0q.has (2 * j + 1)

/-- A held response takes the empty thread queues of its flow (R176). -/
def c0Load (m : Mach) (l j w : Nat) : Mach :=
  match (m.ni l).tx.c0rsp.getD j [] with
  | p :: rest => if c0Empty m l j then c0Queue (m.updTx l fun t => { t with c0rsp := t.c0rsp.put j rest }) l j w p else m
  | [] => m

/-- A response joins its class-0 flow's queue, and the thread queues when these are empty (R176). -/
def c0Enqueue (m : Mach) (l j w : Nat) (p : Pkt) : Mach :=
  c0Load (m.updTx l fun t => { t with c0rsp := t.c0rsp.put j (t.c0rsp.getD j [] ++ [p]) }) l j w

/-- A response goes out: of classes 1 to 3 by injection, of class 0 by the flow's queue (R176). A class-0 response without a flow
has no way to leave and is lost; one the NI makes itself finds its place beyond the 16 (log 19). -/
def sendResponse (m : Mach) (l : Nat) (p : Pkt) : Mach :=
  if p.hdr.k ≠ 0 then m.sendInternal l p
  else match c0Src m l p.hdr.dest 2 with
    | some (j, w) => c0Enqueue m l j w p
    | none => m

/-- Answer a request with a completion without data, from NI l as target. -/
def answer (g : Gen) (m : Mach) (l : Nat) (h : Hdr) (status : Nat) : Mach := sendResponse m l (rspPkt h (m.fid g l) status)

/-- A discarded request of a STOPPING or STOPPED NI (R266). -/
def stopDiscard (g : Gen) (m : Mach) (l : Nat) (h : Hdr) : Mach :=
  if h.np then answer g m l h stStopped
  else
    let m := m.cntN g l 0x28
    if (m.ni l).stopLogged then m else logEv g (m.updN l fun n => { n with stopLogged := true }) (logN l) 0x11 0 h.src

def nackPkt (self : BitVec 16) (k : FlowKey) (e cause : Nat) : Pkt :=
  let h := { Hdr.zero with dest := k.src, src := self, vn := 2, cls := 1, cmd := 0xF1 }
  ⟨(((h.setCsf 239 224 e).setCsf 215 213 k.vn.toNat).setCsf 212 211 k.cls.toNat).setCsf 210 208 cause, [], false, []⟩

def ackPkt (self : BitVec 16) (k : FlowKey) (first count : Nat) : Pkt :=
  let h := { Hdr.zero with dest := k.src, src := self, vn := 2, cls := 1, cmd := 0xF0 }
  ⟨(((h.setCsf 239 224 first).setCsf 223 220 (count - 1)).setCsf 215 213 k.vn.toNat).setCsf 212 211 k.cls.toNat, [], false, []⟩

def sendNack (g : Gen) (m : Mach) (l : Nat) (k : FlowKey) (e cause : Nat) : Mach :=
  (m.sendInternal l (nackPkt (m.fid g l) k e cause)).cntN g l 0x14

def sendAck (g : Gen) (m : Mach) (l : Nat) (k : FlowKey) (first count : Nat) : Mach :=
  (m.sendInternal l (ackPkt (m.fid g l) k first count)).cntN g l 0x16

/-- A remote violation (R450). -/
def remoteViolation (g : Gen) (m : Mach) (l : Nat) : Mach :=
  if l = 0 then m else (m.addWrap g (niKey l 0x41) 1).cntN g l 0x2B

/-! ### Ingress credits -/

/-- Ingress buffer of a channel in flits (R239). -/
def ingressCap (ch : Nat) : Nat := if ch ≤ 5 then 10 else 5

def ingressOcc (e : Ep) (ch : Nat) : Nat := ((e.ingress.getD ch []).map (·.flits)).sum

/-- Channels that withhold their credit: in STOPPING and STOPPED all but 2 and 7 (R266), under isolation all (R448), and
channel 7 while a class-0 response queue is full (R176). -/
def withholds (m : Mach) (l ch : Nat) : Bool :=
  m.sh.isolated || ((m.ni l).fs.down && ch ≠ 2 && ch ≠ 7) ||
    (ch == 7 && ((m.ni l).tx.c0rsp.any fun (_, q) => 16 ≤ q.length))

/-- Credits for n flits that left the ingress buffer of a channel (R242). -/
def returnIngress (m : Mach) (l ch n : Nat) : Mach :=
  if (m.ni l).ep.st ≠ .opened || withholds m l ch || n = 0 then m
  else (m.updEp l fun e => { e with inCr := e.inCr.put ch (e.inCr.getD ch 0 + n) }).emit (.credit l ch n)

/-- Grant a channel credit for the free space that has none. -/
def grantChannel (m : Mach) (l ch : Nat) : Mach :=
  let e := (m.ni l).ep
  returnIngress m l ch (ingressCap ch - ingressOcc e ch - e.inCr.getD ch 0)

/-- Grant every channel credit for the free space that has none (R242, R267). -/
def grantIngress (m : Mach) (l : Nat) : Mach := (List.range 8).foldl (fun m ch => grantChannel m l ch) m

/-! ### Buckets (R217, R218) -/

/-- The level of a bucket now, in 1/65,536 millibyte: RATE × 64 millibytes per ns of fabric time since the last refill, capped;
up to `upto` with the RATE before the last write. -/
def Bucket.refill (b : Bucket) (w now : Nat) : Bucket :=
  let cap := w / 65536 * 64000 * 65536
  if now ≤ b.last then { b with level := min b.level cap }
  else
    let before := min now (max b.upto b.last) - b.last
    { b with level := min (b.level + 64 * (b.old * before + w % 65536 * (now - b.last - before))) cap, last := now }

/-- A full bucket. -/
def Bucket.full (w now : Nat) : Bucket := ⟨w / 65536 * 64000 * 65536, now, 0, 0⟩

/-- A disabled bucket passes everything. -/
def Bucket.passes (b : Bucket) (w flits : Nat) : Bool := w % 65536 == 0 || flits * 64000 * 65536 ≤ b.level

def Bucket.charge (b : Bucket) (w flits : Nat) : Bucket := if w % 65536 = 0 then b else { b with level := b.level - flits * 64000 * 65536 }

/-- The registers of the three buckets: NI_SHAPE, M_POLICE, VP_SHAPE. -/
def niShape (g : Gen) (m : Mach) (l : Nat) : Nat := if hasShapes g l && l ≠ 0 then m.reg g (niKey l 0x20) else 0
def mPolice (g : Gen) (m : Mach) (l : Nat) : Nat := if hasShapes g l && l ≠ 0 then m.reg g (niKey l 0x21) else 0
def vpShape (g : Gen) (m : Mach) (l v : Nat) : Nat := if g.isInit l then m.reg g (vpKey 0x4C00 l v) else 0

/-! ### NI reset -/

/-- NI reset (R237): everything the NI holds is lost; its settings, guard and virtual port states stay, and the port waits
FLOW_IDLE_TIME in OPENING (R269). -/
def niReset (g : Gen) (m : Mach) (l : Nat) : Mach :=
  ((m.stopTimer (.mEject l)).startTimer (.niOpen l) (flowIdle g m l)).updN l fun n =>
    { n with
      ep := { Ep.reset with st := .opening, waiting := true, rdy := n.ep.rdy, quarantined := n.ep.quarantined, needFall := n.ep.needFall }
      tx := { Tx.reset with w := n.tx.w, wNew := n.tx.wNew, maxRun := n.tx.maxRun, busy := n.tx.busy }
      tab := NiTab.reset, rx := Rx.reset, pvTicks := [], pvBase := m.reg g (niKey l 0x40), stopLogged := false }

end Sys2Proof.Machine
end

