-- ==== Sys2Proof/Machine/EngCore.lean ====
section
/-! DEFINITION. What every part of a stitch engine uses: its numbers, scratch (R305, R311), events (R314-R316), the
collectives (R336-R342), the end of a context (R347, R348) and the invocation queue (R317-R319). -/

namespace Sys2Proof.Machine

open Sys2Proof

/-! ### Numbers and settings -/

def engKey (i sub : Nat) : Nat := key (0x6100 + i) sub

/-- Host NI of engine i. -/
def engNi (g : Gen) (i : Nat) : Nat := (g.engHost i).1
def engSlot (g : Gen) (i : Nat) : Nat := (g.engHost i).2

/-- ENG_CTRL in force (R349). -/
def engCtrl (g : Gen) (m : Mach) (i : Nat) : Nat := m.cfg g (engKey i 2)
def ctxMax (g : Gen) (m : Mach) (i : Nat) : Nat := fld (engCtrl g m i) 3 1 + 1
def invokeEn (g : Gen) (m : Mach) (i : Nat) : Bool := bit (engCtrl g m i) 4
def eventStartEn (g : Gen) (m : Mach) (i : Nat) : Bool := bit (engCtrl g m i) 5

/-- The engines hosted by NI l. -/
def enginesOf (g : Gen) (l : Nat) : List Nat := (List.range (g.engines l)).filterMap fun s => g.engAt l s

/-- The engine address of a slot of a host (R299). -/
def engAddr (host slot off : Nat) : BitVec 56 := BitVec.ofNat 56 (0xFE * 2 ^ 48 + host * 2 ^ 32 + slot * 2 ^ 30 + off)

/-! ### Scratch -/

def scratchTop : Nat := 0x8000

/-- Some byte of the range lies in a poisoned word. -/
def Engine.bad (e : Engine) (a n : Nat) : Bool := e.poisoned.any fun w => w * 8 < a + n && a < w * 8 + 8

def Engine.load (e : Engine) (a n : Nat) : Nat := Mem.read e.scratch a n
def Engine.loadBytes (e : Engine) (a n : Nat) : List Byte := Mem.readBytes e.scratch a n

/-- Write bytes to scratch; bytes beyond its end are not there. A word is poisoned while the last whole write of it was
poisoned, and by any poisoned write (R305). -/
def Engine.store (e : Engine) (a : Nat) (bs : List Byte) (poison : Bool) : Engine :=
  let bs := bs.take (scratchTop - a)
  let n := bs.length
  let whole (w : Nat) : Bool := a ≤ w * 8 && w * 8 + 8 ≤ a + n
  let touched := (List.range ((a + n + 7) / 8 - a / 8)).map (a / 8 + ·)
  let keep := e.poisoned.filter fun w => !whole w
  { e with scratch := Mem.writeBytes e.scratch a bs
           poisoned := if poison && n ≠ 0 then keep ++ touched.filter (fun w => !keep.contains w) else keep }

/-- Address of a context's inbox (R303). -/
def inbox (c : Nat) : Nat := 0x7800 + 256 * c

/-! ### Events -/

/-- Contexts whose WAIT is satisfied, in ascending number, subtract in turn (R315). -/
def wakeWaiters (m : Mach) (i : Nat) : Mach :=
  (List.range 8).foldl (fun m c =>
    match m.ctx? i c with
    | some x => (match x.st with
      | .waitEvent ev n =>
        let v := (m.eng i).ev.getD ev 0
        if ev ≠ 31 && n ≤ v then
          (m.updE i fun e => { e with ev := e.ev.put ev (v - n) }).updCtx i c fun x => x.wake m.now
        else m
      | _ => m)
    | none => m) m

/-- Add n to event counter ev, saturating (R315). -/
def signalEvent (m : Mach) (i ev n : Nat) : Mach :=
  wakeWaiters (m.updE i fun e =>
    let v := e.ev.getD ev 0 + n
    { e with ev := e.ev.put ev (min v 65535), evSat := e.evSat || 65535 < v }) i

/-! ### Lane-wise reduction (R338) -/

/-- The combinations of OP and LANE that exist. -/
def reduceOk (op lane : Nat) : Bool := (op ≤ 2 && lane ≤ 2) || (op ≤ 5 && lane == 2)

def laneWidth (lane : Nat) : Nat := if lane = 0 then 32 else if lane = 1 then 16 else 64

/-- One lane; `n` is what a NaN's free value is applied to. -/
def reduceLane (op lane n a b : Nat) : Nat :=
  if lane = 0 then
    (if op = 0 then fp32.add a b else fp32.pick (op == 2) a b).getD (freeNanOf fp32 n)
  else if lane = 1 then
    (if op = 0 then (fp32.add (a * 65536) (b * 65536)).map roundBf16 else bf16.pick (op == 2) a b).getD (freeNanOf bf16 n)
  else if op = 0 then (a + b) % 2 ^ 64
  else if op = 1 then (if toSigned 64 b < toSigned 64 a then b else a)
  else if op = 2 then (if toSigned 64 a < toSigned 64 b then b else a)
  else if op = 3 then a &&& b
  else if op = 4 then a ||| b
  else a ^^^ b

/-- One flit; lane j uses free value n + j. -/
def reduceFlit (op lane n : Nat) (a b : Payload) : Payload :=
  let w := laneWidth lane
  BitVec.ofNat 512 (((List.range (512 / w)).map fun j =>
    reduceLane op lane (n + j) (fld a.toNat (w * j + w - 1) (w * j)) (fld b.toNat (w * j + w - 1) (w * j)) * 2 ^ (w * j)).sum)

/-! ### Collectives (R336-R342) -/

/-- A COLL_DESC entry (R336). -/
structure Desc where
  valid : Bool
  op : Nat
  lane : Nat
  flits : Nat
  expect : Nat
  isRoot : Bool
  parent : Nat
  parentSlot : Nat
  parentDesc : Nat
  resMcast : Bool
  resDest : Nat
  resSlot : Nat
  resDesc : Nat
  acc : Nat
  res : Nat
  event : Nat
deriving DecidableEq, Repr

def Desc.ofNat (w : Nat) : Desc :=
  { valid := bit w 127, op := fld w 126 124, lane := fld w 123 122, flits := fld w 121 120 + 1, expect := fld w 119 113,
    isRoot := bit w 112, parent := fld w 111 96, parentSlot := fld w 95 94, parentDesc := fld w 93 90, resMcast := bit w 89,
    resDest := fld w 88 73, resSlot := fld w 72 71, resDesc := fld w 70 67, acc := fld w 66 52, res := fld w 51 37,
    event := fld w 36 32 }

/-- Descriptor d of engine i, in force. -/
def descOf (g : Gen) (m : Mach) (i d : Nat) : Desc := Desc.ofNat (m.cfg g (engKey i (0x20 + d)))

def collOf (m : Mach) (i d : Nat) : Coll := (m.eng i).coll.getD d ⟨0, 0, 0, 0, none, false⟩

def updColl (m : Mach) (i d : Nat) (f : Coll → Coll) : Mach :=
  let x := f (collOf m i d)
  m.updE i fun e => { e with coll := e.coll.put d x }

/-- Accumulator of a round. -/
def accAddr (x : Desc) (r : Nat) : Nat := x.acc + 256 * (r % 2)

/-- PEN of an engine: ENG_BASE + i with the ENG_BASE of its last pass through STARTING, before any with the default one;
0xFFFF where that exceeds 2,047 (R298, R349, R350). -/
def penOf (g : Gen) (m : Mach) (i : Nat) : Nat :=
  let p := (m.eng i).pen.getD (dfltOf g m (key 0x6000 1) + i)
  if 2047 < p then 0xFFFF else p

/-- COLL_TIMEOUT of round r of a descriptor (R342, R350): a round and the next one have a timer each. -/
def collTimer (i d r : Nat) : Timer := .coll i d (r % 2 == 1)

/-- An engine's own packet joins its send queue, whatever that holds (R72). Context 8 is no context. -/
def engSend (m : Mach) (i : Nat) (p : Pkt) : Mach := m.updE i fun e => { e with sendQ := e.sendQ ++ [⟨8, p, false⟩] }

/-- A collective packet of engine i (R320, R339): VN M, class 2. -/
def collPkt (cmd dest : Nat) (mcast : Bool) (slot desc round pen : Nat) (abandon : Bool) (bs : List Byte) : Pkt :=
  let h := { Hdr.zero with dest := BitVec.ofNat 16 dest, mcast := mcast, vn := 4, cls := 2, cmd := BitVec.ofNat 8 cmd,
                           len := BitVec.ofNat 9 bs.length, addr := engAddr dest slot 0 }
  mkPkt ((((h.setCsf 245 242 desc).setCsf 241 241 abandon.toNat).setCsf 239 224 round).setCsf 223 213 pen) bs

/-- A result is received for a descriptor (R340, R342). -/
def receiveResult (g : Gen) (m : Mach) (i d : Nat) (bs : List Byte) (abandon : Bool) : Mach :=
  let x := descOf g m i d
  let m := m.updE i fun e =>
    if abandon then { e with aband := e.aband ||| 2 ^ d }
    else { e.store x.res bs false with aband := setBit e.aband d false }
  if x.event ≤ 30 then signalEvent m i x.event 1 else m

/-- The current round ends, completed or abandoned: its packet leaves, ROUND goes on, blocked CONTRIBs may try again. -/
def finishRound (g : Gen) (m : Mach) (i d : Nat) (abandon : Bool) : Mach :=
  let x := descOf g m i d
  let r := (collOf m i d).round
  let pen := penOf g m i
  let bs := if abandon then List.replicate (64 * x.flits) 0 else (m.eng i).loadBytes (accAddr x r) (64 * x.flits)
  let m := if x.isRoot then
      engSend m i (collPkt 0x51 x.resDest x.resMcast x.resSlot x.resDesc r pen abandon bs)
    else engSend m i (collPkt 0x50 x.parent false x.parentSlot x.parentDesc r pen abandon bs)
  let m := (if x.isRoot then receiveResult g m i d bs abandon else m).stopTimer (collTimer i d r)
  let m := updColl m i d fun c => { c with round := (c.round + 1) % 65536, cnt0 := c.cnt1, cnt1 := 0, abandonNext := false }
  m.updE i fun e => { e with ctxs := e.ctxs.map fun (n, z) => (n, if z.st = .waitColl then z.wake m.now else z) }

/-- End the current round, and the next one when it is complete already or to be abandoned (R342). -/
def endRound (g : Gen) (i d : Nat) : Nat → Mach → Bool → Mach
  | 0, m, _ => m
  | fuel + 1, m, abandon =>
    let next := (collOf m i d).abandonNext
    let m := finishRound g m i d abandon
    if next then endRound g i d fuel m true
    else if (descOf g m i d).expect ≤ (collOf m i d).cnt0 then endRound g i d fuel m false
    else m

def abandonRound (g : Gen) (m : Mach) (i d : Nat) : Mach := endRound g i d 3 m true

/-- The rounds of a descriptor that hold contributions are abandoned. DEDUCED (log 168): ROUND + 1 is abandoned once it
becomes current, as R342 has it of an ABANDON contribution; where `all`, an empty ROUND before it ends with it. -/
def abandonOpen (g : Gen) (m : Mach) (i d : Nat) (all : Bool) : Mach :=
  let c := collOf m i d
  let m := if c.cnt1 ≠ 0 then updColl m i d fun c => { c with abandonNext := true } else m
  if c.cnt0 ≠ 0 || (all && c.cnt1 ≠ 0) then abandonRound g m i d else m

/-- Combine flits into the accumulator of ROUND or ROUND + 1 (`next`) of a descriptor. -/
def accumulate (g : Gen) (m : Mach) (i d : Nat) (next : Bool) (bs : List Byte) : Mach :=
  let x := descOf g m i d
  let c := collOf m i d
  let first := (if next then c.cnt1 else c.cnt0) == 0
  let a := accAddr x (c.round + next.toNat)
  let old := packBytes ((m.eng i).loadBytes a bs.length) x.flits
  let new := packBytes bs x.flits
  let out := if first then new
    else (old.zip new).zipIdx.map fun ((p, q), j) => reduceFlit x.op x.lane (m.fresh + 32 * j) p q
  let m := if first then m.startTimer (collTimer i d (c.round + next.toNat)) (usUnits (m.reg g (engKey i 0x0C))) else m
  let m := { m with fresh := m.fresh + 128 }
  let m := m.updE i fun e => e.store a (out.flatMap fun p => toBytes p.toNat 64) false
  let m := updColl m i d fun c => if next then { c with cnt1 := c.cnt1 + 1 } else { c with cnt0 := c.cnt0 + 1 }
  if !next && x.expect ≤ (collOf m i d).cnt0 then endRound g i d 3 m false else m

/-- An arriving contribution (R337, R342). -/
def contribute (g : Gen) (m : Mach) (i d round : Nat) (abandon : Bool) (bs : List Byte) : Mach :=
  let l := engNi g i
  let x := descOf g m i d
  let dist := seqDist round (collOf m i d).round
  if !x.valid || 1 < dist then m.cntN g l 0x36
  else if bs.length ≠ 64 * x.flits then m.cntN g l 0x37
  else if abandon then
    (if dist = 0 then abandonRound g m i d else updColl m i d fun c => { c with abandonNext := true })
  else accumulate g m i d (dist == 1) bs

/-- COLL_TIMEOUT (R342) after the first contribution of a round: ROUND is abandoned, ROUND + 1 once it becomes current
(log 168); of the two the one whose time ends first. -/
def collTimeout (i d : Nat) (g : Gen) (m : Mach) : Mach :=
  let r := (collOf m i d).round
  let cur := m.deadline (collTimer i d r)
  let nxt := m.deadline (collTimer i d (r + 1))
  if nxt.any fun b => cur.all fun a => b < a then
    m.onExpiry (collTimer i d (r + 1)) fun m => updColl m i d fun c => { c with abandonNext := true }
  else m.onExpiry (collTimer i d r) fun m => abandonRound g m i d

def execCollTimeout (i desc : Nat) (s : State) := s.runIf (s.gen.hasEngine i && desc < 16) (collTimeout i desc)

/-! ### The end of a context (R347) -/

/-- A fault record (R348). -/
def faultRecord (code c pc : Nat) (src : BitVec 16) (vport : BitVec 10) (info : Nat) : Nat :=
  code * 2 ^ 56 + c % 8 * 2 ^ 53 + pc % 4096 * 2 ^ 41 + src.toNat * 2 ^ 25 + vport.toNat * 2 ^ 15 + info % 2 ^ 15

/-- Record and count a fault; every fault but CONFIG and STOP_KILL is logged (R346-R348). -/
def recordFault (g : Gen) (m : Mach) (i code c pc : Nat) (src : BitVec 16) (vport : BitVec 10) (info : Nat) : Mach :=
  let l := engNi g i
  let r := faultRecord code c pc src vport info
  let m := if m.reg g (engKey i 5) = 0 then m.setReg (engKey i 5) r else m
  let m := ((m.setReg (engKey i 7) r).addWrap g (engKey i 6) 1).cntN g l 0x38
  if code = 0x0C || code = 0x0D then m else logEv g m (logN l) 0x19 0 src (code + engSlot g i * 256)

/-- The request of a memory operation is a read. -/
def memOpReads : MemOp → Bool
  | .wide _ => true
  | .scratch _ => true
  | .write => false
  | .amo _ => true
  | .drop r => r

/-- A context ends without FINISH: its results, unsent packets and completions are dropped, its rounds abandoned, its
invocation completed with STOPPED. -/
def killCtx (g : Gen) (m : Mach) (i c : Nat) : Mach :=
  match m.ctx? i c with
  | none => m
  | some x =>
    let l := engNi g i
    let m := m.updE i fun e => { e with sendQ := e.sendQ.filter fun s => s.ctx != c }
    let m := m.updTab l fun t => { t with tags := t.tags.map fun (n, e) => (n, if e.org = .engine i c then { e with orphan := true } else e) }
    let m := match x.inv with
      | some h => answer g m l h stStopped
      | none => m
    let m := m.updCtx i c fun x =>
      { x with st := .ending, inv := none, rq := [], sends := 0, memErr := none, roots := [], order := [], ans := []
               ops := (x.ops.filter fun (n, _) => !x.ans.has n).map fun (n, o) => (n, .drop (memOpReads o)) }
    x.roots.foldl (fun m d =>
      if (collOf m i d).root ≠ some c then m
      else abandonOpen g (updColl m i d fun y => { y with root := none }) i d false) m

/-- A context faults. -/
def faultCtx (g : Gen) (m : Mach) (i c code info : Nat) : Mach :=
  match m.ctx? i c with
  | none => m
  | some x => killCtx g (recordFault g m i code c x.pc x.ownerSrc x.ownerVport info) i c

/-- STOP_KILL of a context (R345); one that is ending already has no fault. -/
def stopKill (g : Gen) (m : Mach) (i c : Nat) : Mach :=
  if (m.ctx? i c).any fun x => x.st == .ending then killCtx g m i c else faultCtx g m i c 0x0D 0

/-- Every context of an engine ends, its open rounds are abandoned, its queued invocations are answered with STOPPED, and
it enters STOPPED (R342, R345, R347). A context whose memory operations are in flight ends as they complete. -/
def stopEngine (g : Gen) (m : Mach) (i : Nat) : Mach :=
  let l := engNi g i
  let m := (List.range 16).foldl (fun m d => abandonOpen g m i d true) m
  let m := (m.eng i).invQ.foldl (fun m s => match s.inv with
    | some h => answer g m l h stStopped
    | none => m) m
  (m.updE i fun e => { e with fs := .stopped, ctxs := e.ctxs.filter fun (_, x) => !x.ops.isEmpty, invQ := [] }).stopTimer
    (.drain (0x4000 + i))

/-- What ENG_DRAIN_TIMEOUT does to the engine when it has passed (R345, R350). -/
def drainEngine (i : Nat) (g : Gen) (m : Mach) : Mach :=
  m.onExpiry (.drain (0x4000 + i)) fun m => stopEngine g ((List.range 8).foldl (fun m c => stopKill g m i c) m) i

/-! ### Starts (R317-R319) -/

/-- A start joins the invocation queue; with the queue full it is refused. -/
def queueStart (g : Gen) (m : Mach) (i : Nat) (s : Start) : Mach :=
  if 16 ≤ (m.eng i).invQ.length then
    let m := m.cntN g (engNi g i) 0x34
    match s.inv with
    | some h => answer g m (engNi g i) h stStopped
    | none => m
  else m.updE i fun e => { e with invQ := e.invQ ++ [s] }

/-- A start by the Shuttle: ENG_CMD START_CTX or BOOT (R317, R318, R321). -/
def shuttleStart (g : Gen) (m : Mach) (entry : Nat) : Start :=
  { entry := entry % 16, w0 := 0, args := [0, 0, 0], len := 0, src := m.fid g 0, vport := 0, inv := none, data := [] }

/-- START_CTX (R317, R350): nothing while the engine is not RUNNING. -/
def startCtxCmd (i entry : Nat) (g : Gen) (m : Mach) : Mach :=
  if (m.eng i).fs ≠ .running then m else queueStart g m i (shuttleStart g m entry)

def startCtx (i entry : Nat) (g : Gen) (m : Mach) : Mach × Nat := (startCtxCmd i entry g m, mgOk)

def execStartCtx (i entry : Nat) (s : State) := s.runWrite (s.gen.hasEngine i) (startCtx i entry)

/-- The context a start becomes (R318, R321). -/
def newCtx (g : Gen) (m : Mach) (i : Nat) (s : Start) : Ctx :=
  { pc := m.cfg g (engKey i (0x10 + s.entry)) % 4096
    s := [0] ++ s.args ++ [BitVec.ofNat 64 s.len, BitVec.ofNat 64 (if s.w0 = 0 && s.inv.isNone then 0 else s.src.toNat)] ++ List.replicate 26 0
    w := [s.w0, 0, 0, 0], st := .ready, entry := s.entry, ownerSrc := s.src, ownerVport := s.vport, inv := s.inv
    timer := none, flag := false, rq := [], sends := 0, ops := [], order := [], ans := [], memErr := none, issued := 0
    wd := m.reg g (engKey i 0x0A), copies := 0, roots := [], rdyAt := m.now }

/-- CONTEXT_ALLOCATE (R317, R318): the oldest start takes the lowest FREE context. A STOPPING engine still runs the starts
it has accepted (log 23). -/
def contextAllocate (i : Nat) (g : Gen) (m : Mach) : Mach :=
  let e := m.eng i
  match e.invQ, e.ctxs.lowestFree 0 (ctxMax g m i) with
  | s :: rest, some c =>
    if e.fs = .running || e.fs = .stopping then
      let x := newCtx g m i s
      m.updE i fun e => { (e.store (inbox c) s.data false) with ctxs := e.ctxs.put c x, invQ := rest }
    else m
  | _, _ => m

def execContextAllocate (i : Nat) (s : State) := s.runIf (s.gen.hasEngine i) (contextAllocate i)

/-- A STOPPING engine with nothing left to run is STOPPED (R345). -/
def engineDrained (g : Gen) (m : Mach) (i : Nat) : Mach :=
  let e := m.eng i
  if e.fs = .stopping && e.ctxs.isEmpty && e.invQ.isEmpty then stopEngine g m i else m

/-- An ended context is freed once its memory operations and sends are complete (R322). -/
def freeCtx (i c : Nat) (g : Gen) (m : Mach) : Mach :=
  match m.ctx? i c with
  | none => m
  | some x =>
    if x.st = .ending && x.ops.isEmpty && x.sends = 0 && (m.eng i).sendQ.all fun s => s.ctx != c then
      engineDrained g (m.updE i fun e => { e with ctxs := e.ctxs.del c }) i
    else m

/-- CONTEXT_TIMER_FIRE (R314, R316): the first fc after it was armed in which fabric time reaches the compare value. -/
def contextTimerFire (i c : Nat) (_g : Gen) (m : Mach) : Mach :=
  match (m.ctx? i c).bind (·.timer) with
  | none => m
  | some (t, armed) =>
    let m := (m.advanceTo (armed + fcUnits 1)).advanceFt (nsUnits t)
    m.updCtx i c fun x =>
      match x.st with
      | .waitEvent 31 _ => { x with timer := none, flag := false }.wake m.now
      | _ => { x with timer := none, flag := true }

def execContextTimerFire (i c : Nat) (s : State) := s.runIf (s.gen.hasEngine i && c < 8) (contextTimerFire i c)

/-- WATCHDOG (R346): a context that was about to issue more instructions than its limit faults. -/
def watchdog (i c : Nat) (g : Gen) (m : Mach) : Mach :=
  match m.ctx? i c with
  | none => m
  | some x => if x.wd ≠ 0 && x.wd < x.issued then faultCtx g m i c 0x09 0 else m

def execWatchdog (i c : Nat) (s : State) := s.runIf (s.gen.hasEngine i && c < 8) (watchdog i c)

end Sys2Proof.Machine
end

