-- ==== Sys2Proof/Machine/Atomic.lean ====
section
/-! DEFINITION. The memory port (R327-R329) and the atomic path of the engines (R330-R335), with ATOMIC_LOCK_ACQUIRE. -/

namespace Sys2Proof.Machine

open Sys2Proof

/-! ### Requests at the memory port -/

/-- TAG of a context operation and of an atomic path access (R327). -/
def ctxTag (slot c k : Nat) : Nat := slot * 512 + c * 64 + k * 8
def apTag (slot entry : Nat) (write : Bool) : Nat := 2048 + slot * 512 + entry * 8 + write.toNat * 4

/-- A memory-port request for 64 bytes (R327). -/
def memReq (g : Gen) (m : Mach) (l cmd addr tag : Nat) (be : BitVec 64) (data : List Payload) : Pkt :=
  ⟨{ Hdr.zero with dest := m.fid g l, src := mkFid (m.node g) 0x7F, vn := 0, cls := 1, cmd := BitVec.ofNat 8 cmd,
                   tag := BitVec.ofNat 12 tag, len := 64, addr := BitVec.ofNat 56 addr, be := be }, data, false, []⟩

/-- Whether the agent behind NI l can be asked (R268). -/
def agentGone (m : Mach) (l : Nat) : Bool := (m.ni l).ep.st == .agentDown

/-- A memory-port request waits for egress channel 0. -/
def memPush (m : Mach) (l : Nat) (p : Pkt) : Mach := m.updEp l fun e => { e with mem := e.mem ++ [p] }

/-! ### Context operations -/

/-- Operation k of a context is over. -/
def Ctx.dropOp (x : Ctx) (k : Nat) : Ctx := { x with ops := x.ops.del k, order := x.order.erase k, ans := x.ans.del k }

/-- Operation k of context c completes (R327, R329): STATUS and, of a read, its bytes. A MAMO is operation 8. -/
def memOpDone (g : Gen) (m : Mach) (i c k status : Nat) (data : List Byte) : Mach :=
  match m.ctx? i c with
  | none => m
  | some x =>
    let free (m : Mach) : Mach := m.updCtx i c fun x =>
      (if x.st = .waitMem then x.wake m.now else x).dropOp k
    let late (m : Mach) : Mach := m.updCtx i c fun x =>
      { x with memErr := if status = stOk || x.st = .ending then x.memErr else some (x.memErr.getD status) }
    match x.ops.get? k with
    | none => m
    | some (.wide wd) =>
      let m := free m
      if status ≠ stOk then faultCtx g m i c 0x07 status
      else m.updCtx i c fun x => { x with w := x.w.set wd (BitVec.ofNat 512 (ofBytes data)), pc := x.pc + 1 }.wake m.now
    | some (.scratch a) =>
      let m := if status = stOk then m.updE i fun e => e.store a data false else m
      late (free m)
    | some .write => late (free m)
    | some (.amo sd) =>
      let m := free m
      if status ≠ stOk then faultCtx g m i c 0x07 status
      else m.updCtx i c fun x =>
        { x with s := if sd = 0 then x.s else x.s.set sd (BitVec.ofNat 64 (ofBytes data)), pc := x.pc + 1 }.wake m.now
    | some (.drop _) => free m

/-- The answered operations of context c complete as far as issue order lets them (R312). -/
def drainOps (g : Gen) (i c : Nat) : Nat → Mach → Mach
  | 0, m => m
  | fuel + 1, m =>
    match m.ctx? i c with
    | none => m
    | some x =>
      match x.order.head?.bind fun k => (x.ans.get? k).map fun a => (k, a) with
      | some (k, st, data) => drainOps g i c fuel (memOpDone g m i c k st data)
      | none => m

/-- The outcome of operation k of context c: it completes in its turn; that of an ended context at once (R312, R347). -/
def memOpAnswer (g : Gen) (m : Mach) (i c k status : Nat) (data : List Byte) : Mach :=
  match m.ctx? i c with
  | none => m
  | some x =>
    if x.st = .ending && !x.order.contains k then memOpDone g m i c k status data
    else drainOps g i c 9 (m.updCtx i c fun x => { x with ans := x.ans.put k (status, data) })

/-! ### The operations of an atomic -/

/-- Operand size in bytes by its code. -/
def fpOfSize (n : Nat) : FpFmt := if n = 2 then bf16 else if n = 4 then fp32 else fp64

/-- New memory value (R332). -/
def atomicNew (cmd n a b old : Nat) : Nat :=
  let w := 8 * n
  if cmd = 0x40 then (old + a) % 2 ^ w
  else if cmd = 0x41 then a
  else if cmd = 0x42 then (if old = a then b else old)
  else if cmd = 0x43 then (if toSigned w a < toSigned w old then a else old)
  else if cmd = 0x44 then (if toSigned w old < toSigned w a then a else old)
  else if cmd = 0x45 then min old a
  else if cmd = 0x46 then max old a
  else if cmd = 0x47 then old &&& a
  else if cmd = 0x48 then old ||| a
  else if cmd = 0x49 then old ^^^ a
  else ((fpOfSize n).add old a).getD (canonNan (fpOfSize n))

/-- FMT and OPSIZE codes that an atomic may carry (R50, R331). -/
def atomFmtOk (cmd fmt opsize : Nat) : Bool :=
  if cmd = 0x4A then (fmt == 2 && opsize == 2) || (fmt == 3 && opsize == 3) || (fmt == 4 && opsize == 1) else fmt ≤ 1

/-- The atomic is refused with PROTOCOL (R331). -/
def atomRefused (p : Pkt) : Bool :=
  let h := p.hdr
  let code := h.csfFld 246 244
  match opSize code with
  | none => true
  | some n =>
    h.a % n != 0 || !atomFmtOk h.c (h.csfFld 243 241) code ||
      (if h.c = 0x42 && code = 4 then h.n != 32 || p.data.length != 1 || h.csfFld 239 112 != 0 || h.csfFld 111 48 != 0
       else h.n != 0 || !p.data.isEmpty)

/-- The operation a request asks for. -/
def atomOp (p : Pkt) : AtOp :=
  let h := p.hdr
  let n := (opSize (h.csfFld 246 244)).getD 1
  let d := (p.data.headD 0).toNat
  if n = 16 && h.c = 0x42 then ⟨h, none, h.c, n, d % 2 ^ 128, fld d 255 128, 0⟩
  else ⟨h, none, h.c, n, h.csfFld 239 112 % 2 ^ (8 * n), h.csfFld 111 48 % 2 ^ (8 * n), 0⟩

/-! ### Entries -/

/-- Locked blocks of the atomic paths of NI l, as ADDR / 64. -/
def lockedBlocks (g : Gen) (m : Mach) (l : Nat) : List Nat :=
  (enginesOf g l).flatMap fun i => ((m.eng i).atom.filter fun (_, a) => a.phase != 0).map fun (_, a) => a.block

/-- Bytes a delivered request names from ADDR. -/
def touchedBytes (h : Hdr) : Nat := if isAtomic h.c then (opSize (h.csfFld 246 244)).getD 1 else max 1 h.n

/-- A request touches a locked block (R335). -/
def touchesLock (g : Gen) (m : Mach) (l : Nat) (h : Hdr) : Bool :=
  (h.v == 0 || h.v == 1 || h.v == 3) &&
    (lockedBlocks g m l).any fun b => h.a < 64 * b + 64 && 64 * b < h.a + touchedBytes h

/-- The operations applied in order to the block just read (R332): the new block, the bytes written, the old values. -/
def atomApplyAll (ops : List AtOp) (block : Nat) : Nat × Nat × List AtOp :=
  ops.foldl (fun (v, be, out) o =>
    let off := o.hdr.a % 64
    let old := fld v (8 * off + 8 * o.size - 1) (8 * off)
    let new := atomicNew o.cmd o.size o.a o.b old
    (setFld v (8 * off + 8 * o.size - 1) (8 * off) new, be ||| ((2 ^ o.size - 1) * 2 ^ off), out ++ [{ o with old := old }]))
    (block, 0, [])

/-- The write of entry n that has not been presented yet. -/
def unsentWrite (g : Gen) (m : Mach) (i n : Nat) : Option Pkt :=
  (m.ni (engNi g i)).ep.mem.find? fun p => p.hdr.tag.toNat == apTag (engSlot g i) n true

/-- An operation that joins entry n after the block was read is applied to the write that waits (R334). -/
def joinWrite (g : Gen) (m : Mach) (i n : Nat) (a : AtEnt) (op : AtOp) (p : Pkt) : Mach :=
  let l := engNi g i
  let (v, be, ops) := atomApplyAll [op] (p.data.headD 0).toNat
  let q := { p with hdr := { p.hdr with be := p.hdr.be ||| BitVec.ofNat 64 be }, data := [BitVec.ofNat 512 v] }
  let m := m.updEp l fun e => { e with mem := e.mem.map fun x => if x = p then q else x }
  (m.updE i fun e => { e with atom := e.atom.put n { a with ops := a.ops ++ ops } }).cntN g l 0x3C

/-- An operation arrives at an atomic path (R334): it joins the entry that locks its block while that has room and its write
is not presented; nothing when it finds no entry. -/
def atomArrive (g : Gen) (m : Mach) (i : Nat) (op : AtOp) : Option Mach :=
  let e := m.eng i
  let b := op.hdr.a / 64
  match e.atom.find? fun (n, a) => a.block == b && a.ops.length < 8 &&
      (a.phase == 1 || (a.phase == 2 && (unsentWrite g m i n).isSome)) with
  | some (n, a) =>
    match a.phase, unsentWrite g m i n with
    | 2, some p => some (joinWrite g m i n a op p)
    | _, _ => some (m.updE i fun e => { e with atom := e.atom.put n { a with ops := a.ops ++ [op] } })
  | none =>
    (e.atom.lowestFree 0 64).map fun n =>
      let ord := 1 + (e.atom.foldl (fun k (_, a) => max k a.ord) 0)
      m.updE i fun e => { e with atom := e.atom.put n ⟨b, ord, 0, [op]⟩ }

/-- An entry of the atomic path is free again: a MAMO that found none may try again. -/
def atomFreed (m : Mach) (i : Nat) : Mach :=
  m.updE i fun e => { e with ctxs := e.ctxs.map fun (n, x) => (n, if x.st = .waitMem then x.wake m.now else x) }

/-- Every operation of an entry completes with a STATUS that is not OK, and the lock is released (R333). -/
def atomFail (g : Gen) (m : Mach) (i n status : Nat) : Mach :=
  match (m.eng i).atom.get? n with
  | none => m
  | some a =>
    let m := m.updE i fun e => { e with atom := e.atom.del n }
    a.ops.foldl (fun m o => match o.ctx with
      | none => answer g m (engNi g i) o.hdr status
      | some (c, _) => memOpAnswer g m i c 8 status []) (atomFreed m i)

/-- The write is answered OK: completions leave in operation order and the lock is released (R332, R333). -/
def atomDone (g : Gen) (m : Mach) (i n : Nat) : Mach :=
  match (m.eng i).atom.get? n with
  | none => m
  | some a =>
    let l := engNi g i
    let m := m.updE i fun e => { e with atom := e.atom.del n }
    a.ops.foldl (fun m o => match o.ctx with
      | none =>
        if o.hdr.csfFld 240 240 = 1 then answer g m l o.hdr stOk
        else sendResponse m l (rspInlinePkt o.hdr (m.fid g l) stOk (toBytes o.old o.size))
      | some (c, _) => memOpAnswer g m i c 8 stOk (toBytes o.old o.size)) (atomFreed m i)

/-- The outcome of an access of entry n. -/
def atomAnswer (g : Gen) (m : Mach) (i n status : Nat) (data : List Byte) : Mach :=
  match (m.eng i).atom.get? n with
  | none => m
  | some a =>
    if status ≠ stOk then atomFail g m i n status
    else if a.phase = 2 then atomDone g m i n
    else
      let l := engNi g i
      let (v, be, ops) := atomApplyAll a.ops (ofBytes data)
      let m := (m.updE i fun e => { e with atom := e.atom.put n { a with phase := 2, ops := ops } }).cntN g l 0x3C ops.length
      if agentGone m l then atomFail g m i n stUnreachable
      else memPush m l (memReq g m l 0x22 (64 * a.block) (apTag (engSlot g i) n true) (BitVec.ofNat 64 be) [BitVec.ofNat 512 v])

/-- ATOMIC_LOCK_ACQUIRE (R333, R334): the oldest entry that waits for an unlocked block takes the lock and reads. -/
def atomicLockAcquire (i n : Nat) (g : Gen) (m : Mach) : Mach :=
  match (m.eng i).atom.get? n with
  | none => m
  | some a =>
    let l := engNi g i
    if a.phase ≠ 0 || (lockedBlocks g m l).contains a.block ||
        (m.eng i).atom.any fun (_, b) => b.block == a.block && b.ord < a.ord then m
    else
      let m := m.updE i fun e => { e with atom := e.atom.put n { a with phase := 1 } }
      if agentGone m l then atomFail g m i n stUnreachable
      else memPush m l (memReq g m l 0x00 (64 * a.block) (apTag (engSlot g i) n false) 0 [])

def execAtomicLockAcquire (i entry : Nat) (s : State) := s.runIf (s.gen.hasEngine i && entry < 64) (atomicLockAcquire i entry)

/-! ### The agent's answers -/

/-- What an answer's TAG names: engine, and context and operation slot or atomic path entry. -/
inductive MemRef where
  | op (i c k : Nat)
  | ap (i n : Nat)
deriving DecidableEq, Repr

/-- The presented memory-port request an answer with this TAG belongs to, and whether it is a read (R258, R327). -/
def memRef (g : Gen) (m : Mach) (l tag : Nat) : Option (MemRef × Bool) :=
  if (m.ni l).ep.mem.any fun p => p.hdr.tag.toNat == tag then none
  else
    (g.engAt l (fld tag 10 9)).bind fun i =>
      if bit tag 11 then
        ((m.eng i).atom.get? (fld tag 8 3)).bind fun a =>
          if a.phase = (if bit tag 2 then 2 else 1) then some (.ap i (fld tag 8 3), !bit tag 2) else none
      else
        ((m.ctx? i (fld tag 8 6)).bind fun x => if x.ans.has (fld tag 5 3) then none else x.ops.get? (fld tag 5 3)).map fun o =>
          (.op i (fld tag 8 6) (fld tag 5 3), memOpReads o)

/-- The outcome of a memory-port request. -/
def memDone (g : Gen) (m : Mach) (r : MemRef) (status : Nat) (data : List Byte) : Mach :=
  match r with
  | .op i c k => memOpAnswer g m i c k status data
  | .ap i n => atomAnswer g m i n status data

/-- Every memory-port request of NI l ends with a STATUS: its agent is gone (R268). -/
def failMemory (g : Gen) (m : Mach) (l status : Nat) : Mach :=
  let m := m.updEp l fun e => { e with mem := [] }
  (enginesOf g l).foldl (fun m i =>
    let m := (List.range 64).foldl (fun m n =>
      match (m.eng i).atom.get? n with
      | some a => if a.phase = 0 then m else atomFail g m i n status
      | none => m) m
    (List.range 8).foldl (fun m c => (List.range 8).foldl (fun m k =>
      if (m.ctx? i c).any fun x => x.ops.has k && !x.ans.has k then memOpAnswer g m i c k status [] else m) m) m) m

end Sys2Proof.Machine
end

