-- ==== Sys2Proof/Machine/Guard.lean ====
section
/-! DEFINITION. Initiator guards: regions (R356, R357), the judgement (R353, R358, R359), denial records (R365-R368), the
swap (R360-R362) and locks (R364, R369). -/

namespace Sys2Proof.Machine

open Sys2Proof

structure Region where
  valid : Bool
  lock : Bool
  sizeLog2 : Nat
  classes : Nat
  permR : Bool
  permW : Bool
  permA : Bool
  vportLo : Nat
  vportHi : Nat
  base : Nat
deriving DecidableEq, Repr

/-- The fields of a region entry (R356). -/
def Region.ofNat (w : Nat) : Region :=
  ⟨bit w 127, bit w 126, fld w 125 120, fld w 119 116, bit w 115, bit w 114, bit w 113, fld w 112 103, fld w 102 93, fld w 87 44⟩

/-- The check of a region write (R357). -/
def regionOk (w : Nat) : Bool :=
  let r := Region.ofNat w
  !r.valid || (between 12 56 r.sizeLog2 && r.base % 2 ^ (r.sizeLog2 - 12) == 0 && r.vportLo ≤ r.vportHi &&
    fld w 92 88 == 0 && fld w 43 0 == 0)

def Region.contains (r : Region) (a : Nat) : Bool := r.base * 4096 ≤ a && a < r.base * 4096 + 2 ^ r.sizeLog2

/-- The active set of a guard. -/
def Guard.active (x : Guard) : Tab Nat := if x.activeB then x.setB else x.setA
def Guard.shadow (x : Guard) : Tab Nat := if x.activeB then x.setA else x.setB

/-- Permission kinds of R353. -/
inductive Perm where
  | r | w | a
deriving DecidableEq, Repr

/-- What the guard judges of a command: its permission kind, or nothing (R353, R354). -/
def guardKind (cohCheck : Bool) (h : Hdr) : Option Perm :=
  let c := h.c
  if between 0x00 0x03 c then some .r
  else if between 0x20 0x26 c || c == 0x50 || c == 0x51 || c == 0x53 then some .w
  else if isAtomic c || c == 0x52 then some .a
  else if isCoherence c && cohCheck then (if h.v = 0 || h.v = 1 then some .r else some .w)
  else none

structure Denial where
  cause : Nat
  region : Option Nat
deriving DecidableEq, Repr

def guardKeyOf (l : Nat) : Nat := guardKey l 1

/-- Some region entry of this guard has an uncorrectable error (R446, code 4). -/
def guardBad (m : Mach) (l : Nat) : Bool := m.anyBad (logN l) 4

/-- The procedure of R358 for a header of an identity class and VPORT at NI l; nothing when it passes. ENABLE reads 1 while
any index is locked (R364). -/
def judge (g : Gen) (m : Mach) (l cls vport : Nat) (h : Hdr) : Option Denial :=
  let ctrl := m.reg g (guardKeyOf l)
  let x := (m.ni l).guard
  if !g.isInit l || (!bit ctrl 0 && x.locked = 0) then none
  else if isManagement h.c then (if bit ctrl (4 + cls) then none else some ⟨5, none⟩)
  else match guardKind (bit ctrl 2) h with
  | none => none
  | some k =>
    if guardBad m l then some ⟨0, none⟩
    else
      let cand := ((List.range 32).map fun j => (j, Region.ofNat (x.active.getD j 0))).filter fun (_, r) => r.valid && r.contains h.a
      match (cand.find? fun (_, r) => r.lock).orElse fun _ => cand.head? with
      | none => some ⟨0, none⟩
      | some (j, r) =>
        if cls = 2 && r.lock && !x.open_ then some ⟨4, some j⟩
        else if !bit r.classes cls then some ⟨1, some j⟩
        else if cls ≠ 3 && !(r.vportLo ≤ vport && vport ≤ r.vportHi) then some ⟨2, some j⟩
        else if !(match k with | .r => r.permR | .w => r.permW | .a => r.permA) then some ⟨3, some j⟩
        else none

/-- A denial record (R368). -/
def denialRecord (m : Mach) (l cls vport agentTag : Nat) (h : Hdr) (d : Denial) : Nat :=
  h.a * 2 ^ 72 + h.c * 2 ^ 64 + vport * 2 ^ 54 + cls * 2 ^ 52 + d.cause * 2 ^ 49 + d.region.isNone.toNat * 2 ^ 48 +
  d.region.getD 0 * 2 ^ 43 + (if h.np then agentTag else 0) * 2 ^ 31 + (m.ni l).guard.activeB.toNat * 2 ^ 30 + m.ns % 2 ^ 30

/-- Count and record a denial (R365-R368). -/
def recordDenial (g : Gen) (m : Mach) (l cls vport agentTag : Nat) (h : Hdr) (d : Denial) : Mach :=
  let r := denialRecord m l cls vport agentTag h d
  let m := if m.reg g (guardKey l 5) = 0 then m.setReg (guardKey l 5) r else m
  if h.np then
    let n := m.reg g (guardKey l 7)
    let m := (m.setReg (guardKey l (0x10 + n % 16)) r).setReg (guardKey l 7) ((n + 1) % 2 ^ 32)
    (m.addSat g (guardKey l 3) 1).cntN g l 0x1D
  else ((m.setReg (guardKey l 6) r).addSat g (guardKey l 4) 1).cntN g l 0x1E

/-- Copy the entries of a set with VALID and LOCK into both sets and lock their indices. -/
def lockEntries (x : Guard) (set : Tab Nat) : Guard :=
  (List.range 32).foldl (fun x j =>
    let w := set.getD j 0
    if bit w 127 && bit w 126 then { x with setA := x.setA.put j w, setB := x.setB.put j w, locked := x.locked ||| 2 ^ j } else x) x

/-- The locks of the set that a swap makes active (R362). -/
def applyLocks (x : Guard) : Guard := lockEntries x x.active

/-- GUARD_SWAP_EFFECT (R361, R362): one accepted swap takes effect in the guard of NI l. -/
def guardSwapEffect (l : Nat) (_g : Gen) (m : Mach) : Mach :=
  m.updN l fun n =>
    if n.guard.swaps = 0 then n
    else { n with guard := applyLocks { n.guard with activeB := !n.guard.activeB, swaps := n.guard.swaps - 1 } }

def execGuardSwapEffect (l : Nat) (s : State) := s.runIf (s.gen.isInit l) (guardSwapEffect l)

/-- LIFECYCLE_CHANGE (R359): hy_lifecycle changes, and every guard takes the synchronised value. -/
def lifecycleChange (v : BitVec 4) (_g : Gen) (m : Mach) : Mach :=
  let m := m.updSh fun s => { s with lifecycle := v }
  { m with nis := m.nis.map fun (l, n) => (l, { n with guard := { n.guard with open_ := v == 0xA } }) }

def execLifecycleChange (v : BitVec 4) (s : State) := s.run (lifecycleChange v)

/-- hy_lifecycle reads OPEN (R359). -/
def Mach.lifecycleOpen (m : Mach) : Bool := m.sh.lifecycle == 0xA

end Sys2Proof.Machine
end

