-- ==== Sys2Proof/Machine/Arbiter.lean ====
section
/-! DEFINITION. Deficit-weighted round robin over classes 1 to 3 (R203-R208, R214), shared by router outputs and injection
stages. Class c has position c - 1 in every list. -/

namespace Sys2Proof.Machine

open Sys2Proof

/-- next(c) of R205. -/
def nextClass (c : Nat) : Nat := if c = 3 then 1 else c + 1

def Dwrr.d (x : Dwrr) (c : Nat) : Nat := x.deficit.getD (c - 1) 0
def Dwrr.fr (x : Dwrr) (c : Nat) : Bool := x.fresh.getD (c - 1) true
def Dwrr.set (x : Dwrr) (c d : Nat) (f : Bool) : Dwrr :=
  { x with deficit := x.deficit.set (c - 1) d, fresh := x.fresh.set (c - 1) f }

/-- A round robin with the weights in force and those that wait for the round boundary (R214). -/
structure Arb where
  dw : Dwrr
  w : List Nat
  wNew : Option (List Nat)
deriving DecidableEq, Repr

/-- `ptr` passes from c to the next class; a round ends when it passes from class 3 to class 1. -/
def Arb.pass (a : Arb) (c : Nat) : Arb :=
  let a := { a with dw := { a.dw with ptr := nextClass c } }
  if c = 3 then (match a.wNew with
    | some w => { a with w := w, wNew := none }
    | none => a)
  else a

/-- select() of R205; `cand c` gives the flits of class c's candidate, when the class holds a packet. -/
def Arb.select (cand : Nat → Option Nat) : Nat → Arb → Option Nat × Arb
  | 0, a => (none, a)
  | fuel + 1, a =>
    let c := a.dw.ptr
    match cand c with
    | none => Arb.select cand fuel ({ a with dw := a.dw.set c 0 true }.pass c)
    | some n =>
      let d := if a.dw.fr c then a.dw.d c + 64 * a.w.getD (c - 1) 1 else a.dw.d c
      if 64 * n ≤ d then (some c, { a with dw := a.dw.set c d false })
      else Arb.select cand fuel ({ a with dw := a.dw.set c d true }.pass c)

/-- The selection whenever the link can start a packet. -/
def Arb.choose (a : Arb) (cand : Nat → Option Nat) : Option Nat × Arb :=
  if [1, 2, 3].any fun c => (cand c).isSome then Arb.select cand 64 a else (none, a)

/-- A class with no packet holds no deficit (R206). -/
def Arb.settle (a : Arb) (cand : Nat → Option Nat) : Arb :=
  [1, 2, 3].foldl (fun a c => if (cand c).isSome then a else { a with dw := a.dw.set c 0 true }) a

/-- The class is charged when its packet of n flits starts. -/
def Arb.charge (a : Arb) (c n : Nat) : Arb := { a with dw := a.dw.set c (a.dw.d c - 64 * n) (a.dw.fr c) }

/-- What an output does in an fc in which its link is free (R205, R210, R211, R213). -/
inductive Pick where
  | idle
  | start (c : Nat)
  /-- The selected packet of a class is longer than any free run: it is discarded (R213). -/
  | drop (c : Nat)
  /-- The selected packet waits; newly deferred or not. -/
  | wait (c : Nat) (new : Bool)
  /-- The selected packet of class c waits and class f sends a fill-in. -/
  | fill (c f : Nat) (new : Bool)
deriving DecidableEq, Repr

/-- The choice under gating. `sel` is the class whose selected packet waits already; `fits n` is R209. -/
def Arb.pick (a : Arb) (sel : Option Nat) (cand : Nat → Option Nat) (fits : Nat → Bool) (maxRun : Nat) : Pick × Arb :=
  let a := a.settle cand
  let (c?, a, old) : Option Nat × Arb × Bool := match sel with
    | some c => (if (cand c).isSome then (some c, a, true) else ((a.choose cand).1, (a.choose cand).2, false))
    | none => ((a.choose cand).1, (a.choose cand).2, false)
  match c? with
  | none => (.idle, a)
  | some c =>
    let n := (cand c).getD 0
    if maxRun < n then (.drop c, a)
    else if fits n then (.start c, a.charge c n)
    else
      match [nextClass c, nextClass (nextClass c)].find? fun f =>
          ((cand f).map fun k => fits k && 64 * k ≤ a.dw.d f).getD false with
      | some f => (.fill c f (!old), a.charge f ((cand f).getD 0))
      | none => (.wait c (!old), a)

/-- The first number at or after `from_` in rotation over `n` for which `ok` holds. -/
def rotate (n from_ : Nat) (ok : Nat → Bool) : Option Nat :=
  ((List.range n).map fun j => (from_ + j) % n).find? ok

end Sys2Proof.Machine
end

