-- ==== Sys2Proof/Machine/Router.lean ====
section
/-! DEFINITION. The router: allocation (R106-R118), fixed cyclic mode (R112-R115), the output link (R119, R203-R214),
delayed settings (R96, R118, R214) and credits (R36, R139, R141). -/

namespace Sys2Proof.Machine

open Sys2Proof

/-! ### Bridges on the on-die links -/

def endDomain (g : Gen) : LinkEnd → Nat
  | .rtr r _ => g.region r
  | .ni l => g.niDom l

/-- Domain of the unit that sends to a link end. -/
def senderDomain (g : Gen) : LinkEnd → Nat
  | .rtr r p => if p = 4 || p = 5 then g.niDom ((g.niAt r p).getD 0) else Gen.farDomain g r p
  | .ni l => g.region (g.niRouter l)

/-- A domain that runs from the slot clock: generated at 2,000 MHz (R401). -/
def slotClocked (g : Gen) (d : Nat) : Bool := ((g.dom? d).map (·.freq)).getD 0 == 2000

/-- The link into an end crosses an ASYNC bridge (R403, R404). -/
def asyncEnd (g : Gen) (e : LinkEnd) : Bool :=
  senderDomain g e != endDomain g e && !(slotClocked g (senderDomain g e) && slotClocked g (endDomain g e))

/-- A word with a flit of VC 12 or 13. -/
def isC0Word (w : WireFlit) : Bool := bit w.toNat 528 && 12 ≤ fld w.toNat 535 532

/-- A word with a flit of VCs 0 to 11. -/
def isLowWord (w : WireFlit) : Bool := bit w.toNat 528 && fld w.toNat 535 532 < 12

/-- An ASYNC bridge takes n more flits of VCs 0 to 11 into its queue of 8 (R405). DESIGN CHOICE (log 181): a packet starts across
it only when all its flits find room, so that no stall splits it (R406). -/
def bridgeRoom (g : Gen) (m : Mach) (e : LinkEnd) (n : Nat) : Bool :=
  !asyncEnd g e || ((m.wire e).filter isLowWord).length + n ≤ 8

/-! ### Buffers and credits -/

/-- Flits an output queue holds (R117: its total occupancy). -/
def OutPort.occ (o : OutPort) : Nat := (o.q.map fun t => t.need - t.sent).sum

/-- Flits of one VC in an output queue. -/
def OutPort.occVc (o : OutPort) (v : Nat) : Nat := ((o.q.filter fun t => t.vc == v).map fun t => t.need - t.sent).sum

/-- Flits an input VC buffer holds: those whose credit has not gone back. -/
def InPort.occVc (i : InPort) (v : Nat) : Nat := ((i.vcs.getD v []).map fun b => b.got - b.freed).sum

/-- Where n unreserved downstream credits of VC `vc` come from (R108), when the pool and the VC have already given `pool0` and
`vc0` in this fc: at a Z output all from the channel's pool if it holds them, else all from the VC (R380): true for the pool. -/
def creditSource (g : Gen) (m : Mach) (r o vc n pool0 vc0 : Nat) : Option Bool :=
  if o = 6 then
    match g.zAt r with
    | some (p, c) =>
      if pool0 + n ≤ (m.chan p c).pool then some true
      else if vc0 + n ≤ (m.chan p c).cr.getD vc 0 then some false
      else none
    | none => none
  else if vc0 + n ≤ (m.outp g r o).cr.getD vc 0 then some false
  else none

/-- Unreserved downstream credits for n flits (R108). -/
def canReserve (g : Gen) (m : Mach) (r o vc n : Nat) : Bool := (creditSource g m r o vc n 0 0).isSome

/-- Reserve n credits, of the channel's pool or of the VC. -/
def reserveCredits (g : Gen) (m : Mach) (r o vc n : Nat) (pool : Bool) : Mach :=
  if o = 6 then
    match g.zAt r with
    | some (p, c) => m.updC p c fun x =>
      if pool then { x with pool := x.pool - n } else { x with cr := x.cr.put vc (x.cr.getD vc 0 - n) }
    | none => m
  else m.updOut r o fun x => { x with cr := x.cr.put vc (x.cr.getD vc 0 - n) }

/-- Give reserved credits back: a queued packet will not be sent. -/
def unreserve (g : Gen) (m : Mach) (r o : Nat) (t : TxPkt) : Mach :=
  if o = 6 then
    match g.zAt r with
    | some (p, c) =>
      if t.pool then m.updC p c fun x => { x with pool := x.pool + t.need }
      else m.updC p c fun x => { x with cr := x.cr.put t.vc (x.cr.getD t.vc 0 + t.need) }
    | none => m
  else m.updOut r o fun x => { x with cr := x.cr.put t.vc (x.cr.getD t.vc 0 + t.need) }

/-- α of DT_ALPHA, in eighths. -/
def alphaEighths (code : Nat) : Nat := 2 ^ code

/-- Admission under the dynamic threshold (R117). -/
def admits (g : Gen) (m : Mach) (r o vc n : Nat) : Bool :=
  let out := m.outp g r o
  let free := 48 - out.occ
  8 * (out.occVc vc + n) ≤ alphaEighths (m.rt g r).alpha * free && n ≤ free

/-- Room for the flits themselves. -/
def hasRoom (g : Gen) (m : Mach) (r o n : Nat) : Bool := (m.outp g r o).occ + n ≤ 48

/-- Router settings with an uncorrectable entry hold every header (R446, code 6). -/
def settingsHeld (m : Mach) (r : Nat) : Bool := m.anyBad (logR r) 6

/-- Forwarding stops in STOPPED; a STARTING router forwards under its new settings only once it runs (R139, R141). -/
def forwards (m : Mach) (g : Gen) (r : Nat) : Bool :=
  ((m.rt g r).fs == .running || (m.rt g r).fs == .stopping) && !settingsHeld m r

/-- Whether a credit of input p, VC v may go back (R139, R141). -/
def mayReturn (g : Gen) (m : Mach) (r p v : Nat) : Bool :=
  match (m.rt g r).fs with
  | .running | .starting => true
  | .stopping => 12 ≤ v || (p ≤ 3 && (m.rt g (g.neighbour r p)).fs == .stopping)
  | .stopped => 12 ≤ v

/-- Free n flits of a VC of an input: their credits wait to go back. A Z input's credits go to its own link layer, which
sees the room itself; they are kept only while the router withholds them. -/
def freeCredits (g : Gen) (m : Mach) (r p v n : Nat) : Mach :=
  if p = ownInput || (p = 6 && mayReturn g m r 6 v) then m
  else m.updIn r p fun i => { i with credits := i.credits ++ List.replicate n v }

/-- The head packet of an input VC that may request: every packet ahead of it has been fully granted (R111). -/
def requester (q : List BufPkt) : Option BufPkt := q.find? fun b => !b.todo.isEmpty

/-- Change the requester of a VC. -/
def updRequester (f : BufPkt → BufPkt) : List BufPkt → List BufPkt
  | [] => []
  | b :: rest => if b.todo.isEmpty then b :: updRequester f rest else f b :: rest

/-- Header of the copy that leaves by output o (R104; multicast copies carry LA_PORT 0, R133). -/
def copyHdr (g : Gen) (r inp o : Nat) (h : Hdr) : Hdr :=
  { h with dateline := datelineOut g r inp o h.dateline, laPort := if h.mcast then 0 else h.laPort }

/-- VC of the copy on the outgoing link. -/
def copyVc (g : Gen) (r inp o : Nat) (h : Hdr) : Nat := (copyHdr g r inp o h).vc

/-- Store-and-forward of a class at an output (R124), from a slower region (R125), and toward a slower one (R406). -/
def isSaf (g : Gen) (m : Mach) (r inp o cls : Nat) : Bool :=
  let freq (d : Nat) := m.cfg g (key (0x8100 + d) 2)
  bit (m.cfg g (key (0x2200 + r) 4)) (3 * o + (cls - 1)) ||
    (inp != ownInput && freq (Gen.farDomain g r inp) < freq (g.region r)) || freq (Gen.farDomain g r o) < freq (g.region r)

/-! ### Candidates of the output link -/

/-- A packet takes part in the link's choice: not started, and whole where it is held whole (R124). -/
def TxPkt.ready (t : TxPkt) : Bool := t.sent == 0 && 0 < t.got && (!t.saf || t.got == t.need)

/-- Head of the (VC, class) FIFO of a queue, when it takes part. -/
def fifoHead (q : List TxPkt) (v c : Nat) : Option TxPkt :=
  (q.find? fun t => t.vc == v && t.pkt.hdr.k == c).bind fun t => if t.ready then some t else none

/-- The candidate of a class (R119, R207): the head of the FIFO that held it before, until it starts; else of the next FIFO in
rotation. -/
def outCandidate (o : OutPort) (c : Nat) : Option TxPkt :=
  (((o.hold.getD (c - 1) none).bind fun v => fifoHead o.q v c)).or
    ((rotate 12 (o.rot.getD (c - 1) 0) fun v => (fifoHead o.q v c).isSome).bind fun v => fifoHead o.q v c)

/-- The FIFOs that hold the candidates keep them (R207). -/
def OutPort.fix (o : OutPort) : OutPort := { o with hold := [1, 2, 3].map fun c => (outCandidate o c).map (·.vc) }

/-! ### Allocation (R108-R111) -/

/-- A request: input, VC, the outputs asked for. -/
structure Req where
  inp : Nat
  vc : Nat
  outs : List Nat
  need : Nat
  hdr : Hdr
deriving DecidableEq, Repr

/-- A grant, with its plane and whether its credits come from the pool of a Z channel. -/
structure Grant where
  inp : Nat
  vc : Nat
  out : Nat
  plane : Nat
  pool : Bool
deriving DecidableEq, Repr

/-- Inputs of a router, its own packets last. -/
def inputsOf (g : Gen) (r : Nat) : List Nat := g.portsOf r ++ [ownInput]

/-- Every head packet of classes 1 to 3 with the outputs at which it is eligible (R108), admission judged against `m0`. A
VC with an open connection requests again only for the multicast packet it is copying (R110). -/
def requests (g : Gen) (m m0 : Mach) (r : Nat) : List Req :=
  (inputsOf g r).flatMap fun p =>
    (List.range 12).filterMap fun v =>
      ((requester ((m.inp g r p).vcs.getD v [])).filter fun b =>
        !((m.rt g r).conns.any fun c => c.inp == p && c.vc == v) || (b.pkt.hdr.mcast && !b.live.isEmpty)).map fun b =>
        { inp := p, vc := v, need := b.need, hdr := b.pkt.hdr,
          outs := b.todo.filter fun o =>
            let vc := copyVc g r p o b.pkt.hdr
            admits g m0 r o vc b.need && hasRoom g m r o b.need && canReserve g m r o vc b.need && !(m.outp g r o).dead }

def planeFree (conns : List Conn) (gs : List Grant) (inp out pl : Nat) : Bool :=
  !(conns.any fun c => c.plane == pl && (c.inp == inp || c.out == out)) &&
  !(gs.any fun x => x.plane == pl && x.out == out)

/-- Number of an (input, VC) pair in the rotation of R109. -/
def pairNo (inp vc : Nat) : Nat := inp * 14 + vc

/-- The grants of one output: from its pointer in rotation, each on the lowest plane free at both ends. `vcs` holds what has
been granted already: VC, flits, and whether from the pool; so the grants of one fc never count a credit twice (R108). DEDUCED
(log 159): a grant keeps the source it was given even where another grant of the fc is not accepted. -/
def grantOut (g : Gen) (m : Mach) (r o : Nat) (conns : List Conn) (rs : List Req) : List Grant :=
  let from_ := (m.rt g r).gptr.getD o 0
  let order := (List.range 112).map fun j => (from_ + j) % 112
  let cand := order.filterMap fun n => rs.find? fun q => pairNo q.inp q.vc == n && q.outs.contains o
  let step (acc : List Grant × Nat × List (Nat × Nat × Bool)) (q : Req) : List Grant × Nat × List (Nat × Nat × Bool) :=
    let (gs, used, vcs) := acc
    let v := copyVc g r q.inp o q.hdr
    let pool0 := ((vcs.filter fun x => x.2.2).map (·.2.1)).sum
    let vc0 := ((vcs.filter fun x => x.1 == v && !x.2.2).map (·.2.1)).sum
    match [0, 1].find? fun pl => planeFree conns gs q.inp o pl, creditSource g m r o v q.need pool0 vc0 with
    | some pl, some pool =>
      if hasRoom g m r o (used + q.need) then
        (gs ++ [⟨q.inp, q.vc, o, pl, pool⟩], used + q.need, vcs ++ [(v, q.need, pool)])
      else acc
    | _, _ => acc
  (cand.foldl step ([], 0, [])).1

/-- What an input accepts: from its pointer in rotation over outputs, at most one grant per plane. -/
def acceptIn (g : Gen) (m : Mach) (r p : Nat) (gs : List Grant) : List Grant :=
  let from_ := (m.rt g r).aptr.getD p 0
  let order := (List.range 7).map fun j => (from_ + j) % 7
  let mine := order.flatMap fun o => gs.filter fun x => x.inp == p && x.out == o
  mine.foldl (fun acc x => if acc.any fun y => y.plane == x.plane then acc else acc ++ [x]) []

/-- The candidates of an output, as the arbiter sees them: a class with none holds no packet there (R124, R206). -/
def OutPort.settle (o : OutPort) : OutPort :=
  { o with dw := (Arb.settle ⟨o.dw, o.w, o.wNew⟩ fun c => (outCandidate o c).map (·.need)).dw }

/-- A packet joins an output queue. -/
def OutPort.enqueue (o : OutPort) (t : TxPkt) : OutPort := { o.settle with q := o.q ++ [t] }

/-- Open a granted connection: credits are reserved and the copy takes its place in the output queue (R108, R110). -/
def openConn (g : Gen) (m : Mach) (r : Nat) (x : Grant) : Mach :=
  match requester ((m.inp g r x.inp).vcs.getD x.vc []) with
  | none => m
  | some b =>
    let h := copyHdr g r x.inp x.out b.pkt.hdr
    let m := reserveCredits g m r x.out h.vc b.need x.pool
    let t : TxPkt := { pkt := { hdr := h, data := [], badHdr := b.pkt.badHdr, badData := [] }, need := b.need, got := 0,
                       sent := 0, inp := x.inp, inVc := x.vc, vc := h.vc, saf := isSaf g m r x.inp x.out h.k, pool := x.pool }
    let m := m.updOut r x.out fun o => o.enqueue t
    let m := m.updIn r x.inp fun i => { i with vcs := i.vcs.upd x.vc (updRequester fun b =>
      { b with todo := b.todo.erase x.out, live := b.live ++ [x.out] }) }
    let m := if h.mcast then m.cntR g r 9 else m
    m.updR r fun rt => { rt with conns := rt.conns ++ [⟨x.inp, x.vc, x.out, x.plane, b.need⟩] }

/-- One request-grant-accept iteration; pointers move in the first one only. DESIGN CHOICE (log 160): where an output or an
input had two grants accepted in the first iteration, which R109 leaves open, the last in ascending order of input sets its
pointer. -/
def iteration (g : Gen) (m m0 : Mach) (r : Nat) (first : Bool) : Mach :=
  let conns := (m.rt g r).conns
  let rs := requests g m m0 r
  let gs := (g.portsOf r).flatMap fun o => grantOut g m r o conns rs
  let acc := (inputsOf g r).flatMap fun p => acceptIn g m r p gs
  let m := acc.foldl (fun m x => openConn g m r x) m
  if first then
    acc.foldl (fun m x => m.updR r fun rt =>
      { rt with gptr := rt.gptr.put x.out ((pairNo x.inp x.vc + 1) % 112), aptr := rt.aptr.put x.inp ((x.out + 1) % 7) }) m
  else m

/-- Abandon the dead ports of every multicast head packet, with a report (R136). -/
def abandonDead (g : Gen) (m : Mach) (r : Nat) : Mach :=
  (inputsOf g r).foldl (fun m p => (List.range 12).foldl (fun m v =>
    match requester ((m.inp g r p).vcs.getD v []) with
    | some b =>
      let deads := b.todo.filter fun o => b.pkt.hdr.mcast && portDead g m r o
      if deads.isEmpty then m
      else
        let m := m.updIn r p fun i => { i with vcs := i.vcs.upd v (updRequester fun b =>
          { b with todo := b.todo.filter fun o => !deads.contains o }) }
        routerPartial g m r b.pkt.hdr 2 deads
    | none => m) m) m

/-- Discard a packet whose output is dead, with the answer of R410, R411: a non-posted request is refused; a posted packet, and
a copy of a multicast one, is recorded as R22 gives. -/
def refuseDead (g : Gen) (m : Mach) (r o : Nat) (h : Hdr) : Mach :=
  if h.np && !h.mcast then routerRefuse g m r h stUnreachable
  else logEv g m (if (m.dom (Gen.farDomain g r o)).dead then logD (Gen.farDomain g r o) else logR r) 0x08 0 h.dest h.c

/-- A bridge or link that is dead for good: not a Z port that only lacks a live far end, but one whose port is FAILED (R390). -/
def bridgeDeadAt (g : Gen) (m : Mach) (r o : Nat) : Bool :=
  (m.outp g r o).dead || (m.dom (Gen.farDomain g r o)).dead ||
    (o == 6 && ((g.zAt r).map fun (p, _) => (m.port p).link == .failed).getD false)

/-- Answer every unicast head packet toward a dead bridge or link (R411, R441). -/
def answerDead (g : Gen) (m : Mach) (r : Nat) : Mach :=
  (inputsOf g r).foldl (fun m p => (List.range 12).foldl (fun m v =>
    match requester ((m.inp g r p).vcs.getD v []) with
    | some b =>
      if !b.pkt.hdr.mcast && b.todo.any fun o => bridgeDeadAt g m r o then
        refuseDead g (m.updIn r p fun i => { i with vcs := i.vcs.upd v (updRequester fun b => { b with todo := [] }) })
          r (b.todo.headD 0) b.pkt.hdr
      else m
    | none => m) m) m

/-- The residue timer of an input VC starts with the first request of a multicast packet, with the length RESIDUE_TIMEOUT has
then (R134, R145). -/
def startResidue (g : Gen) (m : Mach) (r p v : Nat) : Mach :=
  match requester ((m.inp g r p).vcs.getD v []) with
  | some b =>
    if b.pkt.hdr.mcast && !b.asked then
      (m.updIn r p fun i => { i with vcs := i.vcs.upd v (updRequester fun b => { b with asked := true }) }).startTimer
        (.residue r p v) (nsUnits (m.reg g (key 0x2000 2)))
    else m
  | none => m

def startResidues (g : Gen) (m : Mach) (r : Nat) : Mach :=
  (inputsOf g r).foldl (fun m p => (List.range 12).foldl (fun m v => startResidue g m r p v) m) m

/-- The residue timer of an input VC runs for the multicast packet that requests there; others of the router stop. -/
def residueRuns (g : Gen) (m : Mach) (r p v : Nat) : Bool :=
  ((requester ((m.inp g r p).vcs.getD v [])).map fun b => b.pkt.hdr.mcast && b.asked).getD false

def stopResidues (g : Gen) (m : Mach) (r : Nat) : Mach :=
  m.stopTimers fun t => match t with
    | .residue r' p v => r' == r && !residueRuns g m r p v
    | _ => false

/-! ### Moving flits -/

/-- Take flit `i` of the buffered packet `b` into the copy `t`. -/
def TxPkt.take (t : TxPkt) (b : BufPkt) : TxPkt :=
  { t with
    got := t.got + 1
    pkt := if t.got = 0 then t.pkt
           else { t.pkt with data := t.pkt.data ++ (b.pkt.data[t.got - 1]?).toList, badData := b.pkt.badData.filter (· ≤ t.got) } }

/-- The first packet of a VC buffer whose copy to output o is still streaming. -/
def streaming (q : List BufPkt) (o : Nat) : Option BufPkt := q.find? fun b => b.live.contains o

def updFirst {α : Type} (p : α → Bool) (f : α → α) : List α → List α
  | [] => []
  | a :: rest => if p a then f a :: rest else a :: updFirst p f rest

/-- One fc of one connection: the next flit, when it has arrived, crosses into the output queue. A poisoned unicast packet
is discarded whole at a store-and-forward point (R127). -/
def moveFlit (g : Gen) (m : Mach) (r : Nat) (c : Conn) : Mach :=
  let same (t : TxPkt) : Bool := t.inp == c.inp && t.inVc == c.vc && t.got < t.need
  match streaming ((m.inp g r c.inp).vcs.getD c.vc []) c.out, (m.outp g r c.out).q.find? same with
  | some b, some t =>
    if b.got ≤ t.got then m
    else
      let t' := t.take b
      let done := t'.got == t'.need
      let drop := done && t'.saf && !t'.pkt.hdr.mcast && t'.pkt.poisoned
      let m := m.updOut r c.out fun o =>
        { o.settle with q := if drop then o.q.eraseP same else updFirst same (fun _ => t') o.q }
      let m := if drop then (unreserve g m r c.out t').cntR g r 0x10 else m
      let m := m.updR r fun rt => { rt with conns := (rt.conns.map fun x =>
        if x == c then { x with left := x.left - 1 } else x).filter fun x => x.left != 0 }
      m.updIn r c.inp fun i => { i with vcs := i.vcs.upd c.vc (updFirst (fun b => b.live.contains c.out) fun b =>
        { b with live := if done then b.live.erase c.out else b.live }) }
  | _, _ =>
    -- the copy was discarded with its queue: the rest of it goes nowhere
    (m.updR r fun rt => { rt with conns := rt.conns.filter fun x => x != c }).updIn r c.inp fun i =>
      { i with vcs := i.vcs.upd c.vc (updFirst (fun b => b.live.contains c.out) fun b => { b with live := b.live.erase c.out }) }

/-- Flits of a buffered packet that every copy has taken. -/
def crossed (g : Gen) (m : Mach) (r p v : Nat) (b : BufPkt) : Nat :=
  if !b.todo.isEmpty then 0
  else b.live.foldl (fun n o =>
    match (m.outp g r o).q.find? fun t => t.inp == p && t.inVc == v && t.got < t.need with
    | some t => min n t.got
    | none => n) b.got

/-- Give back the credits of what has left an input VC, and drop packets that have left whole. -/
def sweepVc (g : Gen) (m : Mach) (r p v : Nat) : Mach :=
  let q := (m.inp g r p).vcs.getD v []
  let n := (q.map fun b => crossed g m r p v b - b.freed).sum
  let q' := (q.map fun b => { b with freed := max b.freed (crossed g m r p v b) }).filter fun b =>
    !(b.todo.isEmpty && b.live.isEmpty && b.got == b.need)
  let m := m.updIn r p fun i => { i with vcs := if q'.isEmpty then i.vcs.del v else i.vcs.put v q' }
  if n = 0 then m else freeCredits g m r p v n

def sweep (g : Gen) (m : Mach) (r : Nat) : Mach :=
  (inputsOf g r).foldl (fun m p => (List.range 12).foldl (fun m v =>
    if ((m.inp g r p).vcs.getD v []).isEmpty then m else sweepVc g m r p v) m) m

/-! ### Fixed cyclic mode (R112, R113) -/

/-- No earlier packet of an input is still inside the router (R113). DESIGN CHOICE (log 161): an earlier copy of the same
multicast packet counts as one. -/
def inputClear (g : Gen) (m : Mach) (r p : Nat) : Bool :=
  !((m.rt g r).mids.any fun (_, t, _) => t.inp == p) &&
    (g.portsOf r).all fun o => !((m.outp g r o).q.any fun t => t.inp == p)

/-- Plane 1 of a frame: the slots that meet their outputs empty into the output queues. -/
def frameOut (g : Gen) (m : Mach) (r f : Nat) : Mach :=
  let ps := g.portsOf r
  let n := ps.length
  (m.rt g r).mids.foldl (fun m (s, t, o) =>
    if ps[(s + f) % n]? = some o then
      let m := m.updOut r o fun x => x.enqueue t
      m.updR r fun rt => { rt with mids := rt.mids.del s }
    else m) m

/-- Plane 0 of a frame: input i meets slot (i + f) mod N. DESIGN CHOICE (log 161): a packet moves into a slot once it is whole
in its VC buffer. -/
def frameIn (g : Gen) (m : Mach) (r f : Nat) : Mach :=
  let n := (g.portsOf r).length
  (inputsOf g r).zipIdx.foldl (fun m (p, i) =>
    let s := (i + f) % n
    let ready (b : BufPkt) (o : Nat) : Bool := canReserve g m r o (copyVc g r p o b.pkt.hdr) b.need && !(m.outp g r o).dead
    if (m.rt g r).mids.has s || !inputClear g m r p then m
    else
      let pick := (rotate 12 f fun v =>
        match requester ((m.inp g r p).vcs.getD v []) with
        | some b => b.got == b.need && b.todo.any (ready b)
        | none => false)
      match pick with
      | none => m
      | some v =>
        match requester ((m.inp g r p).vcs.getD v []) with
        | none => m
        | some b =>
          match b.todo.find? (ready b) with
          | none => m
          | some o =>
            let h := copyHdr g r p o b.pkt.hdr
            let pool := (creditSource g m r o h.vc b.need 0 0).getD false
            let m := reserveCredits g m r o h.vc b.need pool
            let t : TxPkt := { pkt := { b.pkt with hdr := h }, need := b.need, got := b.need, sent := 0, inp := p, inVc := v,
                               vc := h.vc, saf := isSaf g m r p o h.k, pool := pool }
            let drop := t.saf && !h.mcast && t.pkt.poisoned
            let m := if drop then (unreserve g m r o t).cntR g r 0x10
                     else m.updR r fun rt => { rt with mids := rt.mids.put s (t, o) }
            let m := if h.mcast then m.cntR g r 9 else m
            m.updIn r p fun x => { x with vcs := x.vcs.upd v (updRequester fun b => { b with todo := b.todo.erase o }) }) m

/-- One frame of 5 fc. DESIGN CHOICE (log 161): plane 1 empties its slots before plane 0 fills the empty ones. -/
def cyclicFrame (g : Gen) (m : Mach) (r : Nat) : Mach :=
  let f := (m.rt g r).frame
  let m := frameOut g m r f
  let m := frameIn g m r f
  m.updR r fun rt => { rt with frame := rt.frame + 1 }

/-- ROUTER_ALLOCATION (R109): one fc of the allocator, or one frame in cyclic mode (R112). `parity` is a parity error in
the allocator's state (R115). While a change of mode waits, nothing is granted (R114). -/
def routerAllocation (r : Nat) (parity : Bool) (g : Gen) (m : Mach) : Mach :=
  let m := if parity && !(m.rt g r).cyclic then
    logEv g (m.updR r fun rt => { rt with want := some true, cause := 2, allocFault := true }) (logR r) 0x0C
    else m
  let rt := m.rt g r
  let m := if !forwards m g r then m
    else
      let m := answerDead g (abandonDead g m r) r
      let m := startResidues g m r
      if rt.cyclic then (if rt.want.isSome then m else cyclicFrame g m r)
      else if rt.want.isSome then m
      else
        let m0 := m
        let m := iteration g m m0 r true
        iteration g m m0 r false
  let m := (m.rt g r).conns.foldl (fun m c => moveFlit g m r c) m
  stopResidues g (sweep g m r) r

def execRouterAllocation (r : Nat) (parity : Bool) (s : State) := s.runIf (s.gen.hasRouter r) (routerAllocation r parity)

/-- CYCLIC_MODE_CHANGE (R114): once no connection is open, the waiting change takes effect. Packets in intermediate slots,
which own their downstream space, go to their output queues (log 16). -/
def cyclicModeChange (r : Nat) (g : Gen) (m : Mach) : Mach :=
  let rt := m.rt g r
  match rt.want with
  | none => m
  | some b =>
    if !rt.conns.isEmpty then m
    else
      let m := rt.mids.foldl (fun m (_, t, o) => m.updOut r o fun x => x.enqueue t) m
      m.updR r fun x => { x with cyclic := b, want := none, mids := [], frame := 0, cause := if b then x.cause else 0 }

def execCyclicModeChange (r : Nat) (s : State) := s.runIf (s.gen.hasRouter r) (cyclicModeChange r)

/-! ### The output link -/

/-- The bytes of a message leave port p: on its sideband bumps, or on a long-reach port in its sideband stream (R397). The
message is kept for 100 µs, after which one that was dropped is repeated. -/
def sendBytes (g : Gen) (m : Mach) (p : Nat) (b : List Byte) : Mach :=
  let m := m.updP p fun x =>
    { x with sideband := (x.sideband.filter fun s => m.now ≤ s.1) ++ [(m.now + usUnits 100, b)]
             sbOut := if g.phy p = 2 then x.sbOut ++ b else x.sbOut }
  if g.phy p = 2 then m else m.emit (.sideband p b)

/-- A sideband message of port p (R397). -/
def Mach.sideband (m : Mach) (g : Gen) (p type : Nat) (payload : List Byte) : Mach := sendBytes g m p (sbMessage type payload)

/-- What a sideband message received does, unless its CRC16 fails: then it is dropped (R397). -/
def sbTake (type : Nat) (payload : List Byte) (crc : BitVec 16) (f : Gen → Mach → Mach) (g : Gen) (m : Mach) : Mach :=
  if crc = sbCrc type payload then f g m else m

/-- Exit latencies of STANDBY, SLEEP and OFF in ns (R431). -/
def linkExitNs (code : Nat) : Nat := [0, 64, 4000, 200000].getD code 200000

def domKey (d sub : Nat) : Nat := key (0x8100 + d) sub

/-- The fabric asks the supply of domain d for a state; its answer is due within PWR_ACK_TIMEOUT (R416). -/
def askSupply (g : Gen) (m : Mach) (d code : Nat) : Mach :=
  ((m.updD d fun x => { x with req := code }).emit (.pwrReq d code)).startTimer (.ack d) (usUnits (m.reg g (key 0x8000 10)))

/-- A WAKE hold of domain d begins: it is in P0. A hold that runs already is not cut short (R426; DEDUCED, log 187). -/
def beginHold (m : Mach) (d : Nat) : Mach :=
  if (m.dom d).holdUs = 0 then m
  else
    let left := (m.deadline (.wakeHold d)).getD 0 - m.now
    (m.startTimer (.wakeHold d) (max (usUnits (m.dom d).holdUs) left)).updD d fun x => { x with holdUs := 0 }

/-- The domain of a link layer follows the state of its link: P2 in SLEEP, P3 in OFF, WAKING on the way back, with the matching
supply (R433; DEDUCED, log 99); in P0 a hold that waited begins (R426). -/
def linkDomain (g : Gen) (m : Mach) (p : Nat) : Mach :=
  match g.port? p with
  | none => m
  | some q =>
    let code := (m.port p).pwr
    let up := (m.port p).exiting
    let st : PwrState := if code < 2 then .p0 else if up then .waking else if code = 2 then .p2 else .p3
    let req := if up then 0 else code - 1
    let x := m.dom q.dom
    let m := if x.req = req || x.req ≠ x.ack then m else askSupply g m q.dom req
    let m := if x.dead then m else m.updD q.dom fun x => { x with st := st }
    if st = .p0 then beginHold m q.dom else m

/-- A link on its way back to ACTIVE: its exit latency begins, and its domain wakes (R431, R433). -/
def linkExit (g : Gen) (m : Mach) (p : Nat) : Mach :=
  linkDomain g ((m.startTimer (.linkExit p) (nsUnits (linkExitNs (m.port p).pwr))).updP p fun x => { x with ask := 0, exiting := true }) p

/-- Bring a link back to ACTIVE (R432): ask the far end, and wait for the exit latency. -/
def linkWake (g : Gen) (m : Mach) (p : Nat) : Mach :=
  if (m.port p).pwr = 0 || (m.port p).exiting then m else (linkExit g m p).sideband g p 0x06 [0]

/-- A flit waits at a Z output: its link is to be ACTIVE (R432). -/
def wakeForFlit (g : Gen) (m : Mach) (r o : Nat) : Mach :=
  if o = 6 && !(m.outp g r 6).q.isEmpty then ((g.zAt r).map fun (p, _) => linkWake g m p).getD m else m

/-- The replay buffer of a Z output's channel takes another flit: no new flit goes while 248 are held (R381). -/
def zBuffer (g : Gen) (m : Mach) (r : Nat) : Bool :=
  match g.zAt r with
  | some (p, c) => (m.chan p c).replay.length + (m.chan p c).txq.length < 248
  | none => false

/-- A Z output sends only while its channel is trained, its link UP and ACTIVE, and the replay buffer has room (R381). -/
def zOpen (g : Gen) (m : Mach) (r : Nat) : Bool :=
  match g.zAt r with
  | some (p, c) =>
    (m.port p).link == .up && !(m.port p).fs.down && (m.port p).pwr == 0 && bit (m.port p).trained c && zBuffer g m r
  | none => false

/-- Whether output p of router r has a link on which it may start a packet. -/
def linkOpen (g : Gen) (m : Mach) (r p : Nat) : Bool :=
  if p = 6 then zOpen g m r else !(m.inp g r p).resetting && !(m.outp g r p).dead

/-- Put a flit on the link out of port p of router r, with its LSEQ: to the far input, or to the channel of a Z port, where it
is on the link in the next slot (R375). -/
def sendOnLink (g : Gen) (m : Mach) (r p : Nat) (pool : Bool) (mk : Nat → Flit) : Mach :=
  let m := (m.cntR g r p).updR r fun x => { x with used := m.now }
  if p = 6 then
    match g.zAt r with
    | some (q, c) =>
      let f := mk (m.chan q c).lseq
      let low := f.vc < 12
      let f := if low then f else { f with lseq := 0 }
      m.updC q c fun x => { x with txq := x.txq ++ [(m.time.sc + 1, pool, f.pack)], lseq := if low then (x.lseq + 1) % 256 else x.lseq }
    | none => m
  else
    let m := m.pushWire (farEnd g r p) (mk (m.outp g r p).lseq)
    m.updOut r p fun o => { o with lseq := (o.lseq + 1) % 256 }

/-- A class-0 flit on a link. DEDUCED (log 158): one that meets the link in the middle of a packet of classes 1 to 3, which R209
rules out for a reserved slot, waits for its end, since nothing stands between the flits of a packet (R41). -/
def sendClass0 (g : Gen) (m : Mach) (r o : Nat) (f : Flit) : Mach :=
  if (m.outp g r o).q.any fun t => 0 < t.sent then m.updOut r o fun x => { x with c0 := x.c0 ++ [f] }
  else sendOnLink g m r o false fun l => { f with lseq := l }

/-- The class-0 flits that waited for the end of a packet. -/
def flushClass0 (g : Gen) (m : Mach) (r o : Nat) : Mach :=
  (m.outp g r o).c0.foldl (fun m f => sendOnLink g m r o false fun l => { f with lseq := l })
    (m.updOut r o fun x => { x with c0 := [] })

/-- The credit that travels with this cycle, and the rest (R36). -/
def takeCredit (g : Gen) (m : Mach) (r p : Nat) : Option Nat × Mach :=
  if p = 6 then (none, m)
  else match (m.inp g r p).credits.find? fun v => mayReturn g m r p v with
    | none => (none, m)
    | some v => (some v, m.updIn r p fun i => { i with credits := i.credits.erase v })

/-- Send the next flit of copy `t`, a member of the queue picked by `same`; after its tail the link is free again. -/
def sendFlit (g : Gen) (m : Mach) (r p : Nat) (t : TxPkt) (same : TxPkt → Bool) (cr : Option Nat) : Mach :=
  let m := sendOnLink g m r p t.pool fun l => t.pkt.flit t.need t.sent t.vc l cr
  let m := m.updOut r p fun o =>
    { o with q := if t.sent + 1 = t.need then o.q.eraseP same else updFirst same (fun t => { t with sent := t.sent + 1 }) o.q }
  if t.sent + 1 = t.need then flushClass0 g m r p else m

/-- Start the candidate of class c; the rotation moves past its FIFO (R119, R207). -/
def startClass (g : Gen) (m : Mach) (r p c : Nat) (cr : Option Nat) : Mach :=
  match outCandidate (m.outp g r p) c with
  | none => m
  | some t =>
    let same (x : TxPkt) : Bool := x.vc == t.vc && x.pkt.hdr.k == c
    let m := m.updOut r p fun o => { o with rot := o.rot.set (c - 1) ((t.vc + 1) % 12), hold := o.hold.set (c - 1) none }
    sendFlit g m r p t same cr

/-- An idle cycle that may carry a credit (R35). -/
def idleCycle (g : Gen) (m : Mach) (r p : Nat) (cr : Option Nat) : Mach :=
  if p = 6 || cr.isNone then m else m.pushWire (farEnd g r p) (idleFlit cr)

/-- A candidate longer than any free run of its link is discarded at the head of its FIFO (R213). -/
def dropNoFit (g : Gen) (m : Mach) (r p c : Nat) : Mach :=
  let out := m.outp g r p
  match outCandidate out c with
  | none => m
  | some t =>
    let m := m.updOut r p fun o =>
      { o with q := o.q.eraseP (fun x => x.vc == t.vc && x.pkt.hdr.k == c), sel := none, noFitLogged := true, hold := o.hold.set (c - 1) none }
    let m := (unreserve g m r p t).cntR g r 0x14
    if out.noFitLogged then m else logEv g m (logR r) 0x0B p 0 t.need

/-- The choice of a free output link in this fc (R203, R205-R213). -/
def outChoice (m : Mach) (g : Gen) (r p : Nat) : Pick × Arb :=
  let out := m.outp g r p
  Arb.pick ⟨out.dw, out.w, out.wNew⟩ out.sel (fun c => (outCandidate out c).map (·.need)) (fun n => m.fits r p n) out.maxRun

/-- What a free output link does with its choice, `cr` being the credit that travels with the cycle. -/
def actOn (g : Gen) (m : Mach) (r p : Nat) (cr : Option Nat) (pk : Pick) : Mach :=
  let select (sel : Option Nat) (new : Bool) : Mach :=
    let m := m.updOut r p fun o => { o with sel := sel }
    if new then m.cntR g r 0x13 else m
  match pk with
  | .idle => idleCycle g (select none false) r p cr
  | .start c => startClass g (select none false) r p c cr
  | .wait c new => idleCycle g (select (some c) new) r p cr
  | .fill c f new => startClass g (select (some c) new) r p f cr
  | .drop c => idleCycle g (dropNoFit g m r p c) r p cr

/-- Flits of the packet that a choice starts. -/
def startNeed (o : OutPort) : Pick → Nat
  | .start c => ((outCandidate o c).map (·.need)).getD 0
  | .fill _ f _ => ((outCandidate o f).map (·.need)).getD 0
  | _ => 0

/-- LINK_PACKET_SELECT (R205): one fc of an output link: the next flit of the packet on it, or the choice of the next
packet (R203-R213), with at most one credit for the other direction (R36). Nothing comes between the flits of a packet (R41):
the row has no effect before the next one is there. A region whose clock does not run sends nothing. -/
def linkPacketSelect (r p : Nat) (g : Gen) (m : Mach) : Mach :=
  if !m.awake (g.region r) || (p ≠ 6 && ((m.inp g r p).resetting || (m.outp g r p).dead)) then m
  else match (m.outp g r p).q.find? fun t => 0 < t.sent with
    | some t =>
      if t.sent < t.got && (p != 6 || zBuffer g m r) then
        let (cr, m) := takeCredit g m r p
        sendFlit g m r p t (fun x => 0 < x.sent) cr
      else m
    | none =>
      let (cr, m) := takeCredit g m r p
      if !linkOpen g m r p then idleCycle g (wakeForFlit g m r p) r p cr
      else
        let m := m.updOut r p OutPort.fix
        let (pk, a) := outChoice m g r p
        if p ≠ 6 && !bridgeRoom g m (farEnd g r p) (startNeed (m.outp g r p) pk) then idleCycle g m r p cr
        else actOn g (m.updOut r p fun o => { o with dw := a.dw, w := a.w, wNew := a.wNew }) r p cr pk

def execLinkPacketSelect (r p : Nat) (s : State) := s.runIf (s.gen.hasRouterPort r p) (linkPacketSelect r p)

/-! ### Settings that reach a router later -/

/-- ROUTE_STATE_ARRIVAL (R96): this router's copies of ROUTE_PORT_ALIVE and PORT_AVOID. -/
def routeStateArrival (r : Nat) (g : Gen) (m : Mach) : Mach :=
  m.updR r fun x => { x with alive := m.reg g (key 0x2000 4), avoid := m.reg g (key 0x2000 5) }

def execRouteStateArrival (r : Nat) (s : State) := s.runIf (s.gen.hasRouter r) (routeStateArrival r)

/-- DT_ALPHA_ARRIVAL (R118). -/
def dtAlphaArrival (r : Nat) (g : Gen) (m : Mach) : Mach :=
  m.updR r fun x => { x with alpha := m.reg g (key 0x2000 1) }

def execDtAlphaArrival (r : Nat) (s : State) := s.runIf (s.gen.hasRouter r) (dtAlphaArrival r)

/-- The weights of classes 1 to 3 (R204). -/
def classWeights (g : Gen) (m : Mach) : List Nat := [1, 2, 3].map fun c => m.reg g (key 0x3200 c)

/-- CLASS_WEIGHT_ARRIVAL (R214): the weights wait at an output (or an injection stage) for its round boundary. -/
def classWeightArrival (e : LinkEnd) (g : Gen) (m : Mach) : Mach :=
  match e with
  | .rtr r p => m.updOut r p fun o => { o with wNew := some (classWeights g m) }
  | .ni l => m.updTx l fun t => { t with wNew := some (classWeights g m) }

/-- The part a link end belongs to exists. -/
def endPresent (g : Gen) : LinkEnd → Bool
  | .rtr r p => g.hasRouterPort r p
  | .ni l => g.hasNi l

def execClassWeightArrival (e : LinkEnd) (s : State) := s.runIf (endPresent s.gen e) (classWeightArrival e)

end Sys2Proof.Machine
end

