-- ==== Sys2Proof/Machine/LinkIn.lean ====
section
/-! DEFINITION. The receiving end of an on-die link: SECDED and LSEQ (R437-R439), link resets and dead links (R440, R441),
the header at a router (R98, R100, R103, R105, R122, R132), the class-0 path (R120-R122), the ejection input of an NI
(R254), and wake hints at a bridge (R422, R424, R428). -/

namespace Sys2Proof.Machine

open Sys2Proof

/-! ### The two sides of a link end -/

def endLog : LinkEnd → Nat
  | .rtr r _ => logR r
  | .ni l => logN l

def endPort : LinkEnd → Nat
  | .rtr _ p => p
  | .ni _ => 0

/-- The other end of the link: the receiving end of the reverse direction. -/
def otherEnd (g : Gen) : LinkEnd → LinkEnd
  | .rtr r p => farEnd g r p
  | .ni l => .rtr (g.niRouter l) (g.niPort l)

def cntEnd (g : Gen) (m : Mach) (e : LinkEnd) (rEvent : Nat) (n : Nat := 1) : Mach :=
  match e with
  | .rtr r _ => m.cntR g r rEvent n
  | .ni _ => m

/-! ### What the receiver holds -/

/-- LSEQ expected, the packet in progress (VC and next position) with its flit count and SRC. -/
structure RxView where
  lseq : Nat
  vc : Option Nat
  pos : Nat
  need : Nat
  src : BitVec 16
deriving DecidableEq, Repr

def rxView (g : Gen) (m : Mach) : LinkEnd → RxView
  | .rtr r p =>
    let i := m.inp g r p
    let b := i.cur.bind fun v => (i.vcs.getD v []).getLast?
    ⟨i.lseq, i.cur, i.pos, ((b.map (·.need)).getD 0), ((b.map (·.pkt.hdr.src)).getD 0)⟩
  | .ni l =>
    let x := (m.ni l).rx
    ⟨x.lseq, x.cur.map (·.freed), ((x.cur.map (·.got)).getD 0), ((x.cur.map (·.need)).getD 0), ((x.cur.map (·.pkt.hdr.src)).getD 0)⟩

/-- R439 allows the replacement of every bad group. -/
def replaceable (v : RxView) (f : Flit) (bad : Nat) : Bool :=
  !(bit bad 2) && (!(bit bad 1) || !f.crvalid) && (!(bit bad 3) || v.vc.isSome)

/-- CTRL bits of the bad groups taken from the receiver's state (R439), and POISON set. -/
def replaced (v : RxView) (f : Flit) (bad : Nat) : Flit :=
  let lo := if bit bad 0 then v.lseq % 8 else f.lseq % 8
  let hi := if bit bad 1 then v.lseq / 8 else f.lseq / 8
  { f with
    lseq := hi * 8 + lo
    fidx := if bit bad 0 then v.pos else f.fidx
    crvc := if bit bad 1 then 0 else f.crvc
    vc := if bit bad 3 then v.vc.getD 0 else f.vc
    ftype := if bit bad 3 then (if v.pos + 1 = v.need then 2 else 0) else f.ftype
    poison := true }

/-! ### Link resets -/

/-- A packet whose missing flits are poisoned fillers (R440, R410): the data it lacks reads as filler. -/
def BufPkt.filled (b : BufPkt) : BufPkt :=
  if b.got < b.need then { b with got := b.need, pkt := { b.pkt with badData := b.pkt.badData ++ List.range' b.got (b.need - b.got) } } else b

/-- The packet in progress at an NI is completed with poisoned fillers and joins those that have arrived (log 9). -/
def Rx.completed (x : Rx) : Rx := { x with cur := none, arrived := x.arrived ++ (x.cur.map fun b => b.filled.pkt).toList }

/-- Fillers for the flits a class-0 packet in progress still needs, on its reserved output. -/
def fillClass0 (g : Gen) (m : Mach) (r p : Nat) : Mach :=
  [12, 13].foldl (fun m v =>
    match (m.inp g r p).vcs.getD v [] with
    | b :: _ =>
      let m := (b.live.head?.map fun o => (List.range (b.need - b.got)).foldl (fun m j =>
        sendClass0 g m r o { b.pkt.flit b.need (b.got + j) v 0 none with poison := true, payload := 0 }) m).getD m
      m.updIn r p fun i => { i with vcs := i.vcs.del v }
    | [] => m) m

/-! Fields of a flit as it stands on the wire (R33, R34). -/

def wfVc (w : WireFlit) : Nat := fld w.toNat 535 532
def wfType (w : WireFlit) : Nat := fld w.toNat 531 530
def wfValid (w : WireFlit) : Bool := bit w.toNat 528
def wfLseq (w : WireFlit) : Nat := fld w.toNat 522 515
def wfFidx (w : WireFlit) : Nat := fld w.toNat 514 512
def wfHdr (w : WireFlit) : Hdr := Hdr.ofBits (w.extractLsb' 0 512)

/-- Take out of the receive buffer of a channel the first `n` flits of VC v; their credits are owed (R380). -/
def Chan.takeVc (x : Chan) (v n : Nat) : List WireFlit × Chan :=
  match n with
  | 0 => ([], x)
  | n + 1 =>
    match x.rxbuf.find? fun (_, w) => wfVc w == v with
    | none => ([], x)
    | some (pool, w) =>
      let x := { x with rxbuf := x.rxbuf.erase (pool, w) }
      let x := if pool then { x with owedPool := x.owedPool + 1 } else { x with owed := x.owed.put v (x.owed.getD v 0 + 1) }
      let (ws, x) := Chan.takeVc x v n
      (w :: ws, x)

/-- Drop what is left of the packets whose heads have left the release stage: flits here at once, later ones as they
arrive (R384, R440). -/
def dropOpened (m : Mach) (p c : Nat) : Mach :=
  m.updC p c fun x =>
    let x := x.opened.foldl (fun x (v, need, next) =>
      let (ws, x) := Chan.takeVc x v (need - next)
      { x with swallow := x.swallow.put v (x.swallow.getD v 0 + (need - next - ws.length)) }) x
    { x with opened := [] }

/-- The receiver's side of a link reset (R440). -/
def resetReceiver (g : Gen) (m : Mach) : LinkEnd → Mach
  | .rtr r p =>
    let m := fillClass0 g m r p
    m.updIn r p fun i =>
      { i with
        vcs := (i.vcs.map fun (v, q) => (v, (q.filter fun b => !b.live.isEmpty).map fun b =>
          { b.filled with todo := [], freed := b.need })).filter fun (_, q) => !q.isEmpty
        cur := none, pos := 0, credits := [], resetting := true }
  | .ni l => m.updRx l fun x => { x.completed with credits := [], resetting := true }

/-- An output whose link resets: what has started loses its remaining flits, and what waited behind it on the link goes too. -/
def OutPort.cut (o : OutPort) : OutPort :=
  { o with q := o.q.filter fun t => t.sent == 0, cr := [], lseq := 0, sel := none, c0 := [] }

/-- The sender's side (R440): packets that have started lose their remaining flits; whole packets stay queued. -/
def resetSender (g : Gen) (m : Mach) : LinkEnd → Mach
  | .rtr r p =>
    -- the sender to a router input is the far router's output, or the NI's injection stage
    if p = 6 then ((g.zAt r).map fun (q, c) => dropOpened m q c).getD m
    else if p = 4 || p = 5 then m.updTx ((g.niAt r p).getD 0) fun t => { t with cr := [], lseq := 0 }
    else m.updOut (g.neighbour r p) (facing p) OutPort.cut
  | .ni l => m.updOut (g.niRouter l) (g.niPort l) OutPort.cut

def resetEnd (g : Gen) (m : Mach) (e : LinkEnd) : Mach := resetSender g (resetReceiver g (m.setWire e []) e) e

/-- Resets of the link in this Shuttle tick, counted at both ends (R441). -/
def countReset (m : Mach) : LinkEnd → Mach
  | .rtr r p => m.updIn r p fun i => { i with resets := i.resets + 1 }
  | .ni l => m.updRx l fun x => { x with resets := x.resets + 1 }

def resetsOf (g : Gen) (m : Mach) : LinkEnd → Nat
  | .rtr r p => (m.inp g r p).resets
  | .ni l => (m.ni l).rx.resets

/-- Headers among flits. -/
def c0Heads (fs : List Flit) : List Hdr :=
  (fs.filter fun f => f.fidx == 0 && (f.ftype == 1 || f.ftype == 3)).map fun f => Hdr.ofBits f.payload

/-- Discard every packet queued at an output toward a dead side, those in intermediate slots on their way to it too, each with
its answer or record (R22, R410, R411). -/
def killQueue (g : Gen) (m : Mach) (r o : Nat) : Mach :=
  let q := (m.outp g r o).q ++ ((m.rt g r).mids.filter fun x => x.2.2 == o).map (·.2.1)
  let hs := q.map (·.pkt.hdr) ++ c0Heads (m.outp g r o).c0
  let m := m.updOut r o fun x => { x with q := [], sel := none, c0 := [] }
  let m := m.updR r fun x => { x with mids := x.mids.filter fun y => y.2.2 != o }
  hs.foldl (fun m h => refuseDead g m r o h) m

/-- One direction's ends of a dead link: the receiver's port is marked, the sender's queue discarded (R441). -/
def killEnd (g : Gen) (m : Mach) : LinkEnd → Mach
  | .rtr r p =>
    let m := (m.updOut r p fun o => { o with dead := true, again := false }).orReg g (key (logR r) 9) (2 ^ p)
    killQueue g m r p
  | .ni l => m.updRx l fun x => { x with dead := true, again := false }

/-- The receiving ends of a link's two directions; a Z input has only its own, fed by the link layer. -/
def linkEnds (g : Gen) (e : LinkEnd) : List LinkEnd :=
  match e with
  | .rtr _ 6 => [e]
  | _ => [e, otherEnd g e]

/-- A link reset at receiving end `e`: both directions (R440), and the death of the link beyond LINK_RESET_LIMIT (R441). -/
def linkReset (g : Gen) (m : Mach) (e : LinkEnd) (aux : Nat) : Mach :=
  let m := cntEnd g m e 0x1A
  let m := logEv g m (endLog e) 0x03 (endPort e) 0 aux
  let m := (linkEnds g e).foldl (resetEnd g) m
  let m := (linkEnds g e).foldl countReset m
  let m := (linkEnds g e).foldl (fun m e => m.startTimer (.linkReset (linkKey e)) (fcUnits 16)) m
  if m.cfg g (key 0x9800 6) < resetsOf g m e then
    logEv g ((linkEnds g e).foldl (killEnd g) m) (endLog e) 0x04 (endPort e)
  else m

/-- Both sides of a link end open again: LSEQ 0 and 5 credits per VC, from which the kept packets take theirs first (R440). -/
def reopenLink (m : Mach) : LinkEnd → Mach
  | .rtr r p =>
    let m := m.updIn r p fun i => { i with resetting := false, lseq := 0 }
    m.updOut r p fun o => { o with lseq := 0, cr := (List.range 12).map fun v => (v, 5 - ((o.q.filter fun t => t.vc == v).map (·.need)).sum) }
  | .ni l => (m.updRx l fun x => { x with resetting := false, lseq := 0 }).updTx l fun t => { t with lseq := 0, cr := fullCredits }

/-- A link end that waits to reopen; a dead link does not (R441). -/
def endReopens (g : Gen) (m : Mach) : LinkEnd → Bool
  | .rtr r p => (m.inp g r p).resetting && !(m.outp g r p).dead
  | .ni l => (m.ni l).rx.resetting && !(m.ni l).rx.dead

/-- LINK_RESET_REOPEN (R440): 16 fc after the reset. -/
def linkResetReopen (e : LinkEnd) (g : Gen) (m : Mach) : Mach :=
  if endReopens g m e then m.onExpiry (.linkReset (linkKey e)) fun m => reopenLink m e else m

def execLinkResetReopen (e : LinkEnd) (s : State) := s.runIf (endPresent s.gen e) (linkResetReopen e)

/-! ### Class 0 at a router (R120-R122) -/

/-- The outputs whose multiplexer takes the flit of input p on VC 12 or 13 in slot `sc`, with their entries (R120, R164). -/
def c0Takers (g : Gen) (m : Mach) (r p : Nat) (vc13 : Bool) (sc : Nat) : List (Nat × Rsv) :=
  let (b, per) := m.bankAt sc
  (g.portsOf r).filterMap fun o =>
    ((bankEntries b r o).find? fun e => e.inPort == p && e.vc13 == vc13 && e.covers per sc && o != p).map fun e => (o, e)

/-- The entry that names this input in the next slot (R121, R122, R165), with its output. -/
def c0Entry (g : Gen) (m : Mach) (r p : Nat) (vc13 : Bool) : Option (Nat × Rsv) :=
  let sc := m.time.sc + 1
  let (b, per) := m.bankAt sc
  if per = 0 then none
  else (g.portsOf r).findSome? fun o =>
    ((bankEntries b r o).find? fun e => e.inPort == p && e.start % per == sc % per && e.vc13 == vc13 && o != p).map fun e => (o, e)

/-- A reservation entry with an uncorrectable error selects no input (R446, code 3). -/
def c0Blocked (m : Mach) (r o : Nat) : Bool :=
  m.sh.badEntries.any fun e => e.log == logR r && e.code == 3 && e.key / 256 == 0x3800 + 8 * r + o

/-- A class-0 flit: its header is checked against the entry of its slot; the packet passes through or is discarded, with an answer or
a record where its output is dead (R411). A data flit
leaves only in a slot in which the table takes it (R120, R164). DEDUCED (log 162): past one that is not taken, the rest of its
packet goes nowhere either. -/
def c0Flit (g : Gen) (m : Mach) (r p : Nat) (f : Flit) : Mach :=
  let fwd (m : Mach) (o : Nat) : Mach := (sendClass0 g m r o { f with crvalid := false, crvc := 0 }).cntR g r 7
  let taken (o : Nat) : Bool := (c0Takers g m r p (f.vc == 13) (m.time.sc + 1)).any fun x => x.1 == o && !c0Blocked m r o
  if f.fidx = 0 && (f.ftype = 1 || f.ftype = 3) then
    let h := Hdr.ofBits f.payload
    let need := h.flits
    let hit := (c0Entry g m r p (f.vc == 13)).filter fun (o, e) => e.id == h.rsvId.toNat && !c0Blocked m r o
    let b : BufPkt := { pkt := { hdr := h, data := [], badHdr := f.poison, badData := [] }, need := need, got := 1, todo := [],
                        live := (hit.map (·.1)).toList, freed := 0, asked := false }
    let m := m.updIn r p fun i =>
      { i with vcs := if need = 1 then i.vcs else i.vcs.put f.vc [b], cur := if need = 1 then none else some f.vc, pos := if need = 1 then 0 else 1 }
    match hit with
    | some (o, _) =>
      if bridgeDeadAt g m r o then refuseDead g (m.updIn r p fun i => { i with vcs := i.vcs.upd f.vc fun q => q.map fun b => { b with live := [] } }) r o h
      else fwd m o
    | none => logEv g (m.cntR g r 0x0D) (logR r) 0x0A p h.src h.rsvId.toNat
  else
    match (m.inp g r p).vcs.getD f.vc [] with
    | [] => m
    | b :: _ =>
      let out := b.live.filter taken
      let m := out.foldl fwd m
      m.updIn r p fun i =>
        if b.got + 1 = b.need then { i with vcs := i.vcs.del f.vc, cur := none, pos := 0 }
        else { i with vcs := i.vcs.put f.vc [{ b with got := b.got + 1, live := out }], pos := b.got + 1 }

/-! ### A header of classes 1 to 3 at a router -/

/-- Where a header goes: outputs to copy to and the header as it travels on, or nothing when it is discarded here (R98,
R100, R105, R132, R442). -/
def headerRoute (g : Gen) (m : Mach) (r p : Nat) (h : Hdr) : Mach × List Nat × Hdr :=
  if h.mcast then
    let n := h.dest.toNat % 1024
    let e := m.groupEntry g n r
    if 1024 ≤ h.dest.toNat then (routerUnreachable g m r h, [], h)
    else if m.badEntry (logR r) 2 (key (0x2400 + n) r) then (routerPartial g m r h 2 [0, 1, 2, 3, 4, 5, 6], [], h)
    else if p = 6 && !(bit e 7 && m.groupEnabled g n) then (routerUnreachable g m r h, [], h)
    else (m, groupPorts e, { h with laPort := 0 })
  else
    match resolve g m r h with
    | none => (routerUnreachable g m r h, [], h)
    | some t =>
      let out := if p = 6 then outPort g r t.1 t.2 else h.laPort.toNat
      let level := p = 6 && fidNode h.dest ≠ m.node g &&
        (match g.zAt r, g.zAt t.1 with
         | some (a, _), some (b, _) => levelFault g m a b
         | _, _ => false)
      if level then (logEv g (m.cntR g r 0x0B) (logR r) 0x09 p h.dest 1, [], h)
      else if illegalRoute g r p out then (logEv g (m.cntR g r 0x0A) (logR r) 0x09 p h.dest 0, [], h)
      else (m, [out], { h with laPort := nextLa g r out t h, dateline := if p ≤ 3 then h.dateline else false })

/-- The output of a packet that a STOPPED router holds: none yet (R141). -/
def unrouted : Nat := 8

/-- A router that is STOPPED, or STARTING, does not route what arrives (R141). -/
def holdsUnrouted (g : Gen) (m : Mach) (r : Nat) : Bool := (m.rt g r).fs == .stopped || (m.rt g r).fs == .starting

/-- Packets held unrouted at a router take their route under the settings now in force (R141). -/
def routeHeld (g : Gen) (m : Mach) (r : Nat) : Mach :=
  (g.portsOf r).foldl (fun m p => (List.range 12).foldl (fun m v =>
    let (m, q) := ((m.inp g r p).vcs.getD v []).foldl (fun (m, q) (b : BufPkt) =>
      if b.todo = [unrouted] then
        let (m, todo, h) := headerRoute g m r p b.pkt.hdr
        (m, q ++ [{ b with todo := todo, pkt := { b.pkt with hdr := h } }])
      else (m, q ++ [b])) (m, [])
    m.updIn r p fun i => { i with vcs := i.vcs.upd v fun _ => q }) m) m

/-- A flit of VCs 0 to 11 at a router input: a header opens a buffered packet, a data flit extends it. -/
def bufFlit (g : Gen) (m : Mach) (r p : Nat) (f : Flit) : Mach :=
  if f.fidx = 0 && (f.ftype = 1 || f.ftype = 3) then
    let h := Hdr.ofBits f.payload
    let m := m.cntR g r 8
    let (m, todo, h') := if holdsUnrouted g m r then (m, [unrouted], h) else headerRoute g m r p h
    let need := h.flits
    let b : BufPkt := { pkt := { hdr := h', data := [], badHdr := f.poison, badData := [] }, need := need, got := 1,
                        todo := todo, live := [], freed := 0, asked := false }
    m.updIn r p fun i =>
      { i with vcs := i.vcs.put f.vc (i.vcs.getD f.vc [] ++ [b]), cur := if need = 1 then none else some f.vc, pos := if need = 1 then 0 else 1 }
  else
    match (m.inp g r p).vcs.getD f.vc [] |>.getLast? with
    | none => m
    | some b =>
      if b.got < b.need && (m.inp g r p).cur == some f.vc then
        let b' := { b with got := b.got + 1, pkt := { b.pkt with data := b.pkt.data ++ [f.payload], badData := b.pkt.badData ++ (if f.poison then [b.got] else []) } }
        let last := b'.got == b'.need
        m.updIn r p fun i =>
          { i with vcs := i.vcs.upd f.vc fun q => q.dropLast ++ [b'], cur := if last then none else i.cur, pos := if last then 0 else b'.got }
      else m

/-! ### The ejection input of an NI -/

/-- A flit at NI l: whole packets join those that have arrived, for the row of their CMD (log 9). The field `freed` of the
packet in progress holds its VC. -/
def niFlit (m : Mach) (l : Nat) (f : Flit) : Mach :=
  if f.fidx = 0 && (f.ftype = 1 || f.ftype = 3) then
    let h := Hdr.ofBits f.payload
    let b : BufPkt := { pkt := { hdr := h, data := [], badHdr := f.poison, badData := [] }, need := h.flits, got := 1, todo := [],
                        live := [], freed := f.vc, asked := false }
    m.updRx l fun x => if b.need = 1 then { x with cur := none, arrived := x.arrived ++ [b.pkt] } else { x with cur := some b }
  else
    m.updRx l fun x =>
      match x.cur with
      | none => x
      | some b =>
        let b' := { b with got := b.got + 1, pkt := { b.pkt with data := b.pkt.data ++ [f.payload], badData := b.pkt.badData ++ (if f.poison then [b.got] else []) } }
        if b'.got = b'.need then { x with cur := none, arrived := x.arrived ++ [b'.pkt] } else { x with cur := some b' }

/-! ### LINK_FLIT_RECEIVE -/

/-- A flit with FVALID = 1, checked: LSEQ first (R37, R440). -/
def acceptFlit (g : Gen) (m : Mach) (e : LinkEnd) (f : Flit) : Mach :=
  match e with
  | .rtr r p =>
    let m := (m.updR r fun x => { x with used := m.now }).updIn r p fun i => { i with lseq := (i.lseq + 1) % 256 }
    if 12 ≤ f.vc then c0Flit g m r p f else bufFlit g m r p f
  | .ni l => niFlit ((m.updN l fun x => { x with used := m.now }).updRx l fun x => { x with lseq := (x.lseq + 1) % 256 }) l f

/-- A credit for the sender at this end's unit (R36). -/
def acceptCredit (m : Mach) (e : LinkEnd) (v : Nat) : Mach :=
  if 12 ≤ v then m
  else match e with
    | .rtr r p => m.updOut r p fun o => { o with cr := o.cr.put v (o.cr.getD v 0 + 1) }
    | .ni l => m.updTx l fun t => { t with cr := t.cr.put v (t.cr.getD v 0 + 1) }

/-- Whether the receiving end's link is closed for a reset (R440) or dead (R441). -/
def endClosed (g : Gen) (m : Mach) : LinkEnd → Bool
  | .rtr r p => (m.inp g r p).resetting || (m.outp g r p).dead
  | .ni l => (m.ni l).rx.resetting || (m.ni l).rx.dead

/-- Exit latency of P1, P2 and P3 in ns (R417). -/
def exitNs (g : Gen) (m : Mach) (d s : Nat) : Nat :=
  if s = 1 then ceilDiv 16000 (max 1 (m.cfg g (domKey d 2))) else if s = 2 then 2000 else 40000

/-- A wake hint crosses from the bridge of domain d at router r (R422); one that comes while another from there has not been taken
is merged with it: OVERRUN (R409). -/
def addHint (g : Gen) (m : Mach) (d r : Nat) (h : Hdr) : Mach :=
  if m.sh.hints.any fun x => x.1 == d && x.2.1 == r then overrun g m d
  else (crossValue g m d).updSh fun s => { s with hints := s.hints ++ [(d, r, h.dest, h.vn, m.now)] }

/-- Domain d leaves state s (1 to 3): its exit latency begins, and the wake is counted (R417). -/
def toWaking (g : Gen) (m : Mach) (d s : Nat) : Mach :=
  ((m.updD d fun x => { x with st := .waking, goal := 0, hinted := false }).startTimer (.wake d) (nsUnits (exitNs g m d s))).addWrap g
    (domKey d 8) 1

/-- Begin waking a domain: to WAKING, its supply asked for (R416, R417). A domain in P1 needs no supply. -/
def beginWake (g : Gen) (m : Mach) (d : Nat) : Mach :=
  let x := m.dom d
  match x.st with
  | .p0 => m
  | .waking => m.updD d fun x => { x with goal := 0 }
  | .closing =>
    if x.req = 0 then (m.stopTimer (.close d)).updD d fun x => { x with st := .p0, hinted := false, woke := m.now }
    else m.updD d fun x => { x with hinted := true }
  | .p1 => toWaking g m d 1
  | .p2 | .p3 =>
    let m := toWaking g m d (if x.st = .p2 then 2 else 3)
    if x.req ≠ 0 && x.ack = x.req then askSupply g m d 0 else m

/-- A header at a bridge into a domain that is not in P0: it is held and wakes its way (R421, R422, R424, R427, R428). -/
def heldAtBridge (g : Gen) (m : Mach) (e : LinkEnd) (f : Flit) : Mach :=
  let d := endDomain g e
  let r := match e with
    | .rtr r _ => r
    | .ni l => g.niRouter l
  let h := Hdr.ofBits f.payload
  if 12 ≤ f.vc || h.v = 5 then
    match (m.dom d).st with
    | .p0 | .waking => m
    | _ => beginWake g (m.addWrap g (key (0x8100 + d) 9) 1) d
  else
    match (m.dom d).st with
    | .closing => if (m.dom d).req = 0 then beginWake g m d else addHint g m d r h
    | .p1 => beginWake g m d
    | _ => addHint g m d r h

/-- An error met in a stored table entry on the way (R446). -/
def tableError (g : Gen) (m : Mach) (t : TabErr) : Mach :=
  if t.uncorrectable then
    let m := logEv g m t.log 0x0D 0 0 t.code
    m.updSh fun s => { s with badEntries := if s.badEntries.contains t then s.badEntries else s.badEntries ++ [t] }
  else logEv g m t.log 0x01 0 0 t.code

/-- A Z input is fed by its link layer, which keeps the sequence itself (R381, R382). -/
def fromLinkLayer : LinkEnd → Bool
  | .rtr _ 6 => true
  | _ => false

/-! ### The speculative grant (R107) -/

/-- The outputs a header would request as it stands on the wire. -/
def specOutputs (g : Gen) (m : Mach) (r p : Nat) (h : Hdr) : List Nat :=
  (if h.mcast then groupPorts (m.groupEntry g (h.dest.toNat % 1024) r)
   else if p = 6 then ((resolve g m r h).map fun t => outPort g r t.1 t.2).toList
   else [h.laPort.toNat]).filter fun o => g.hasRouterPort r o

/-- The allocator grants a unicast header in the fc in which it arrives at input p on VC v, with its fields as received: every
packet ahead of it in the VC has been granted (R111), in either iteration of R109. A multicast header requests in the next fc
(R133). -/
def specGranted (g : Gen) (m : Mach) (r p v : Nat) (h : Hdr) : Bool :=
  let b : BufPkt := { pkt := { hdr := h, data := [], badHdr := false, badData := [] }, need := h.flits, got := 1,
                      todo := specOutputs g m r p h, live := [], freed := 0, asked := false }
  let m1 := m.updIn r p fun i => { i with vcs := i.vcs.put v (i.vcs.getD v [] ++ [b]) }
  let on (x : Mach) : Bool := (x.rt g r).conns.any fun c => c.inp == p && c.vc == v
  !h.mcast && ((m.inp g r p).vcs.getD v []).all (fun b => b.todo.isEmpty) && forwards m g r && !(m.rt g r).cyclic &&
    (m.rt g r).want.isNone && !on m && on (iteration g (iteration g m1 m1 r true) m1 r false)

/-- A correction of a field of R107. -/
def specFieldsDiffer (h h' : Hdr) : Bool :=
  h.dest != h'.dest || h.vn != h'.vn || h.cls != h'.cls || h.mcast != h'.mcast || h.laPort != h'.laPort || h.len != h'.len

/-- The header in flit `f`, received as word `w`, loses the grant of its arrival (R107): a field was corrected, the legality
check discards it, or it is poisoned with an error in CTRL. Judged on the machine `m` before it arrives (log 48). -/
def specCancelled (g : Gen) (m : Mach) (r p : Nat) (f : Flit) (w : WireFlit) (bad : Nat) : Bool :=
  let h := Hdr.ofBits f.payload
  let illegal := (specOutputs g m r p h).any fun o => illegalRoute g r p o
  f.fidx == 0 && (f.ftype == 1 || f.ftype == 3) && f.vc < 12 &&
    (specFieldsDiffer h (wfHdr w) || illegal || (bad != 0 && f.poison)) && specGranted g m r p f.vc (wfHdr w)

/-- SPEC_CANCEL (R107). -/
def countCancel (g : Gen) (m : Mach) (e : LinkEnd) (f : Flit) (w : WireFlit) (bad : Nat) : Mach :=
  match e with
  | .rtr r p => if specCancelled g m r p f w bad then m.cntR g r 0x15 else m
  | .ni _ => m

/-- The link cycle itself, once it has crossed. -/
def receiveWord (g : Gen) (m : Mach) (e : LinkEnd) (w : WireFlit) : Mach :=
  let (f, corr, bad) := unpackFlit w
  let nCorr := ((List.range 4).filter fun i => bit corr i).length
  let m := if nCorr = 0 then m else logEv g (cntEnd g m e 0x18 nCorr) (endLog e) 0x01 (endPort e) 0 corr
  let v := rxView g m e
  if bad ≠ 0 && !replaceable v f bad then linkReset g m e bad
  else
    let head := v.vc.isNone
    let f := if bad = 0 then f else replaced v f bad
    let m := if bad = 0 then m
      else logEv g (cntEnd g m e 0x19) (endLog e) 0x02 (endPort e) (if head then (Hdr.ofBits f.payload).src else v.src) (bad + f.vc * 16)
    let m := if f.crvalid then acceptCredit (if asyncEnd g e then crossValue g m (endDomain g e) else m) e f.crvc else m
    if !f.fvalid then m
    else if f.lseq ≠ v.lseq && !fromLinkLayer e then linkReset g m e (16 + bad)
    else acceptFlit g (countCancel g m e f w bad) e f

/-- The words of a link without the oldest; at an ASYNC bridge, without the oldest of the queue the received word comes from, for
VCs 0 to 11 or for VCs 12 and 13 (R405). -/
def wordsAfter (g : Gen) (e : LinkEnd) (c0 : Bool) (ws : List WireFlit) : List WireFlit :=
  if asyncEnd g e then ws.eraseP fun x => isC0Word x == c0 else ws.tail

/-- LINK_FLIT_RECEIVE (R438): the word `w` is received at end `e`, in the place of the oldest word on that link; `t` is an
error met in a table entry the header's lookups read. A header at a bridge into a domain outside P0 waits on the link; a
domain in reset receives nothing (R410). -/
def linkFlitReceive (e : LinkEnd) (w : WireFlit) (t : Option TabErr) (g : Gen) (m : Mach) : Mach :=
  if endClosed g m e || ((m.dom (endDomain g e)).inReset && (m.dom (endDomain g e)).st == .p0) then m
  else
    let f := (unpackFlit w).1
    let d := endDomain g e
    let head := f.fvalid && (f.ftype == 1 || f.ftype == 3)
    let crosses := d != senderDomain g e || (match e with | .rtr _ p => p == 6 | .ni _ => false)
    let m := if crosses && head && (m.dom d).st != .p0 then heldAtBridge g m e f else m
    if crosses && head && (m.dom d).st != .p0 then m
    else
      let m := (t.map (tableError g m)).getD m
      receiveWord g (m.setWire e (wordsAfter g e (f.fvalid && 12 ≤ f.vc) (m.wire e))) e w

def execLinkFlitReceive (e : LinkEnd) (w : WireFlit) (t : Option TabErr) (s : State) :=
  s.runIf (endPresent s.gen e) (linkFlitReceive e w t)

/-! ### Residue timers -/

/-- RESIDUE_TIMEOUT (R135): the pending ports of the multicast head packet of input p, VC vc are abandoned and reported. -/
def residueTimeout (r p vc : Nat) (g : Gen) (m : Mach) : Mach :=
  match requester ((m.inp g r p).vcs.getD vc []) with
  | some b =>
    if b.pkt.hdr.mcast && b.asked then
      m.onExpiry (.residue r p vc) fun m =>
        let m := m.updIn r p fun i => { i with vcs := i.vcs.upd vc (updRequester fun b => { b with todo := [] }) }
        sweep g (routerPartial g m r b.pkt.hdr 0 b.todo) r
    else m
  | none => m

def execResidueTimeout (r p vc : Nat) (s : State) := s.runIf (s.gen.hasRouterPort r p) (residueTimeout r p vc)

end Sys2Proof.Machine
end

