-- ==== Sys2Proof/Machine/Inject.lean ====
section
/-! DEFINITION. The injection stage of an NI: what may enter I1 (R246, R286), the steps of R247 (R219-R224, R248-R252),
mirroring (R225-R230), sampling (R504), the injection link (R203, R209-R213), and INJECTION_ADMIT and
HELD_STORE_RELEASE. -/

namespace Sys2Proof.Machine

open Sys2Proof

/-! ### Splitting (R250) -/

/-- A packet with other bytes at another address. -/
def Pkt.slice (p : Pkt) (addr off n : Nat) : Pkt :=
  let h := { p.hdr with addr := BitVec.ofNat 56 addr, len := BitVec.ofNat 9 n }
  if p.hdr.c = 0x24 then { p with hdr := h.withInline ((p.hdr.inlineBytes.drop off).take n), data := [] }
  else if isRead p.hdr.c then { p with hdr := h }
  else { p with hdr := h, data := packBytes ((p.bytes.drop off).take n) (ceilDiv n 64) }

/-- The parts of a request: two when it crosses a 256 B boundary and its command is split. -/
def splitParts (p : Pkt) : List Pkt :=
  if p.hdr.crosses && isSplittable p.hdr.c then
    let n := 256 - p.hdr.a % 256
    [Pkt.slice p p.hdr.a 0 n, Pkt.slice p (p.hdr.a + n) n (p.hdr.n - n)]
  else [p]

def totalFlits (ps : List Pkt) : Nat := (ps.map (·.flits)).sum

/-! ### Step 2 -/

/-- Tags of virtual port v in use, orphaned ones included (R282). -/
def vpTags (n : Ni) (v : Nat) : Nat := (n.tab.tags.filter fun (_, e) => e.org == .agent && e.hdr.vport.toNat == v).length

/-- TAG_BUDGET of a virtual port (R281). -/
def tagBudget (g : Gen) (m : Mach) (l v : Nat) : Nat := fld (m.reg g (vpKey 0x4800 l v)) 28 16

/-- Fabric tags of the NI (R252). -/
def tagLimit (g : Gen) (m : Mach) (l : Nat) : Nat := if l = 0 then 4096 else m.cfg g (niKey l 0x04)

/-- The first resource a request lacks at step 2, as the number of its wait event (R498). -/
def lacks (g : Gen) (m : Mach) (l : Nat) (org : Origin) (parts : List Pkt) : Option Nat :=
  match parts with
  | [] => none
  | p :: _ =>
    let n := m.ni l
    let h := p.hdr
    let need := if h.np then parts.length else 0
    if need ≠ 0 && tagLimit g m l < n.tab.tags.length + need then some 0x2D
    else if 1 < parts.length && isRead h.c && 16 ≤ (n.tab.splits.filter fun (_, s) => s.read).length then some 0x31
    else if h.kept && (256 < retxPkts n + parts.length || 512 < retxFlits n + totalFlits parts) then some 0x2E
    else if !isInternal h.c && !(n.tab.src.any fun f => f.key == { h.flow with src := m.fid g l }) && 512 ≤ n.tab.src.length then some 0x2F
    else if need ≠ 0 && org == .agent && g.isInit l && tagBudget g m l h.vport.toNat < vpTags n h.vport.toNat + need then some 0x30
    else none

/-! ### Shaping -/

/-- Classes 1 to 3 on VN Q, F, W or M from the endpoint port or an engine (R216). -/
def isShaped (org : Origin) (h : Hdr) : Bool :=
  h.k ≠ 0 && (h.v = 0 || h.v = 1 || h.v = 3 || h.v = 4) && (match org with | .shuttle _ => false | _ => true)

/-- The buckets of an NI refilled to now, and those of its virtual ports (R218). -/
def refillAll (g : Gen) (m : Mach) (l : Nat) : Mach :=
  let now := m.ft
  let vps := (m.ni l).vps.map fun (v, x) => (v, { x with bucket := x.bucket.refill (vpShape g m l v) now })
  let ns := niShape g m l
  let mp := mPolice g m l
  (m.updN l fun n => { n with vps := vps }).updTx l fun t =>
    { t with niBucket := t.niBucket.refill ns now, mBucket := t.mBucket.refill mp now }

/-- Every bucket that applies holds enough (R219). -/
def bucketsPass (g : Gen) (m : Mach) (l : Nat) (org : Origin) (h : Hdr) (flits : Nat) : Bool :=
  (m.ni l).tx.niBucket.passes (niShape g m l) flits &&
    (org != .agent || (m.vp l h.vport.toNat).bucket.passes (vpShape g m l h.vport.toNat) flits)

def chargeBuckets (g : Gen) (m : Mach) (l : Nat) (org : Origin) (h : Hdr) (flits : Nat) : Mach :=
  let m := m.updTx l fun t => { t with niBucket := t.niBucket.charge (niShape g m l) flits }
  if org = .agent && g.isInit l && vpShape g m l h.vport.toNat % 65536 ≠ 0 then
    m.updVp l h.vport.toNat fun x => { x with bucket := x.bucket.charge (vpShape g m l h.vport.toNat) flits }
  else m

/-- VPORT of a held packet: an engine's packets carry 0 (R324). -/
def heldVport (x : Held) : Nat := if x.org = .agent then x.req.vport.toNat else 0

def vportOf (org : Origin) (h : Hdr) : Nat := if org = .agent then h.vport.toNat else 0

def heldPkts (n : Ni) : Nat := (n.tx.held.map fun x => x.parts.length).sum
def heldFlits (n : Ni) : Nat := (n.tx.held.map fun x => totalFlits x.parts).sum

/-- Room in the held store; a target NI has none (R237). -/
def heldRoom (g : Gen) (m : Mach) (l : Nat) (parts : List Pkt) : Bool :=
  g.isInit l && heldPkts (m.ni l) + parts.length ≤ 32 && heldFlits (m.ni l) + totalFlits parts ≤ 160

/-- A shaped packet has to be held: its virtual port has a packet held, or a bucket is short (R248). DEDUCED (log 21): what
is never shaped (R216) is never held, whatever its virtual port holds. -/
def mustHold (g : Gen) (m : Mach) (l : Nat) (org : Origin) (h : Hdr) (parts : List Pkt) : Bool :=
  isShaped org h && (((m.ni l).tx.held.any fun x => heldVport x == vportOf org h) || !bucketsPass g m l org h (totalFlits parts))

/-! ### The virtual port scheduler (R286) -/

/-- The oldest held packet of each virtual port, in ascending order. -/
def heldHeads (n : Ni) : List (Nat × Held) :=
  (n.tx.held.foldl (fun (t : Tab Held) x => if t.has (heldVport x) then t else t.put (heldVport x) x) [])

def vpWeight (g : Gen) (m : Mach) (l v : Nat) : Nat :=
  let w := (m.vp l v).oldWeight
  if w ≠ 0 then w else max 1 (fld (m.reg g (vpKey 0x4800 l v)) 15 8)

/-- The waiting virtual port at or after the pointer, and the next one; a round ends at the highest. -/
def nextWaiting (vs : List Nat) (v : Nat) : Nat × Bool :=
  match vs.find? (v < ·) with
  | some x => (x, false)
  | none => (vs.headD 0, true)

/-- A virtual port with nothing held has no deficit (R206, R286). -/
def vpSettle (m : Mach) (l : Nat) : Mach :=
  let vs := (heldHeads (m.ni l)).map (·.1)
  m.updN l fun n => { n with vps := n.vps.map fun (v, x) => (v, if vs.contains v then x else { x with deficit := 0, fresh := true }) }

/-- The scheduler's pointer moves; at the end of a round the written weights come into force (R284). -/
def vpMove (m : Mach) (l nx : Nat) (wrap : Bool) : Mach :=
  let m := m.updTx l fun t => { t with vpPtr := nx }
  if wrap then m.updN l fun n => { n with vps := n.vps.map fun (k, x) => (k, { x with oldWeight := 0 }) } else m

/-- The algorithm of R205 over virtual ports; `ok` are those whose oldest packet passes its shapers. The visit of a port that is
passed over ends. -/
def vpSelect (g : Gen) (l : Nat) (vs : List (Nat × Held)) (ok : List Nat) : Nat → Mach → Option (Nat × Mach)
  | 0, _ => none
  | fuel + 1, m =>
    let p := (m.ni l).tx.vpPtr
    let nums := vs.map (·.1)
    let (v, m) := if nums.contains p then (p, m) else ((nextWaiting nums p).1, vpMove m l (nextWaiting nums p).1 (nextWaiting nums p).2)
    let (nx, wrap) := nextWaiting nums v
    let go (m : Mach) : Mach := vpMove m l nx wrap
    if !ok.contains v then vpSelect g l vs ok fuel (go (m.updVp l v fun x => { x with fresh := true }))
    else
      let x := m.vp l v
      let d := if x.fresh then x.deficit + 64 * vpWeight g m l v else x.deficit
      let n := ((vs.find? fun y => y.1 == v).map fun y => totalFlits y.2.parts).getD 0
      if 64 * n ≤ d then some (v, (m.updVp l v fun x => { x with deficit := d - 64 * n, fresh := false }).updTx l fun t => { t with vpPtr := v })
      else vpSelect g l vs ok fuel (go (m.updVp l v fun x => { x with deficit := d, fresh := true }))

/-- The held packet that would be served in class c, and the scheduler's state once it starts. -/
def heldPick (g : Gen) (m : Mach) (l c : Nat) : Option (Held × Mach) :=
  let vs := heldHeads (m.ni l)
  let ok := (vs.filter fun (_, x) => x.req.k == c && bucketsPass g m l x.org x.req (totalFlits x.parts)).map (·.1)
  if ok.isEmpty then none
  else (vpSelect g l vs ok 2000 m).bind fun (v, m') => (vs.find? fun y => y.1 == v).map fun y => (y.2, m')

/-! ### Candidates of a class (R246) -/

/-- The origin of a packet in an ingress buffer: the Shuttle's requests carry their number as TAG. -/
def chanOrigin (l : Nat) (h : Hdr) : Origin := if l = 0 then .shuttle h.tag.toNat else .agent

/-- The router's input VC has credit for the packet (R68). -/
def injCredit (n : Ni) (p : Pkt) : Bool := p.flits ≤ n.tx.cr.getD (2 * p.hdr.v) 0

/-- The number of a channel or of an engine's send queue among the heads that keep resources (R248). -/
def From.place : From → Option Nat
  | .chan ch => some ch
  | .engine i => some (8 + i)
  | _ => none

/-- The step 2 resources the head of a channel or send queue keeps. -/
def keptOf (n : Ni) (f : From) : Option Kept := f.place.bind n.tx.kept.get?

/-- An earlier packet of the flow, already numbered, has still to leave: the upper part of a split request, or a retransmission
(R78, R249). -/
def flowBehind (g : Gen) (m : Mach) (l : Nat) (p : Pkt) : Bool :=
  let k := { p.hdr.flow with src := m.fid g l }
  ((m.ni l).tx.second ++ (m.ni l).tx.retxQ).any fun q => q.hdr.flow == k

/-- The packets of a queue that come first of their flows. -/
def flowHeads (q : List Pkt) : List Pkt :=
  q.foldl (fun acc p => if acc.any fun x => x.hdr.flow == p.hdr.flow then acc else acc ++ [p]) []

/-- A request may leave its channel or send queue: it has or lacks nothing of step 2, the router's input VC has credit, and the
held store has room if it needs it. -/
def mayEnter (g : Gen) (m : Mach) (l : Nat) (f : From) (org : Origin) (p : Pkt) : Bool :=
  let parts := splitParts p
  ((keptOf (m.ni l) f).isSome || (lacks g m l org parts).isNone) && !flowBehind g m l p && parts.all (injCredit (m.ni l)) &&
    (!mustHold g m l org p.hdr parts || heldRoom g m l parts)

/-- Engines of NI l with the packet at the head of their send queues (R323). -/
def sendHeads (g : Gen) (m : Mach) (l : Nat) : List (Nat × SendEnt) :=
  (List.range (g.engines l)).filterMap fun s => (g.engAt l s).bind fun i => ((m.eng i).sendQ.head?).map fun e => (i, e)

/-- The packet the injection stage would take in class c. DEDUCED (log 22): engine sends come after the channels and
mirror copies last; a header that waits for a resource or for router credit is passed over. -/
def candidate (g : Gen) (m : Mach) (l c : Nat) : Option Cand :=
  let n := m.ni l
  let here (p : Pkt) : Bool := p.hdr.k == c && injCredit n p
  match (flowHeads n.tx.second).find? here with
  | some p => some ⟨.second, [p], .agent⟩
  | none =>
    match (flowHeads n.tx.retxQ).find? here with
    | some p => some ⟨.retx, [p], .agent⟩
    | none =>
      match n.tx.internal.find? fun p => here p && (lacks g m l .agent [p]).isNone with
      | some p => some ⟨.internal, [p], .agent⟩
      | none =>
        match (heldPick g m l c).filter fun (x, _) => x.parts.all fun p => injCredit n p && !flowBehind g m l p with
        | some (x, _) => some ⟨.held, x.parts, x.org⟩
        | none =>
          let head (ch : Nat) : Option Pkt := (n.ep.ingress.getD ch []).head?
          let okCh (ch : Nat) : Bool :=
            ((head ch).map fun p => p.hdr.k == c && mayEnter g m l (.chan ch) (chanOrigin l p.hdr) p).getD false
          match rotate 6 (n.tx.rot.getD (c - 1) 0) okCh with
          | some ch => (head ch).map fun p => ⟨.chan ch, splitParts p, chanOrigin l p.hdr⟩
          | none =>
            match (sendHeads g m l).find? fun (i, e) => e.pkt.hdr.k == c && mayEnter g m l (.engine i) (.engine i e.ctx) e.pkt with
            | some (i, e) => some ⟨.engine i, splitParts e.pkt, .engine i e.ctx⟩
            | none =>
              match n.tx.mirror.find? fun p => here p && (lacks g m l .agent [p]).isNone && !flowBehind g m l p with
              | some p => some ⟨.mirror, [p], .agent⟩
              | none => none

/-- The selected packet that waits under the gate may still be taken (R210). -/
def selValid (g : Gen) (m : Mach) (l : Nat) (x : Cand) : Bool :=
  let t := (m.ni l).tx
  let cr := x.parts.all (injCredit (m.ni l))
  match x.frm, x.parts with
  | .second, p :: _ => t.second.contains p && cr
  | .retx, p :: _ => t.retxQ.contains p && cr
  | .internal, p :: _ => t.internal.contains p && cr
  | .mirror, p :: _ => t.mirror.contains p && cr
  | .held, ps => cr && t.held.any fun (h : Held) => h.parts == ps && bucketsPass g m l h.org h.req (totalFlits ps)
  | .chan ch, _ => ((((m.ni l).ep.ingress.getD ch []).head?).map fun p => splitParts p == x.parts && mayEnter g m l x.frm x.org p).getD false
  | .engine i, _ => (((m.eng i).sendQ.head?).map fun e => splitParts e.pkt == x.parts && mayEnter g m l x.frm x.org e.pkt).getD false
  | _, [] => false

/-- The packet of class c at the injection stage: the one selected before, while it waits (R210), else the candidate. -/
def stageCand (g : Gen) (m : Mach) (l c : Nat) : Option Cand :=
  ((m.ni l).tx.sel.bind fun (k, x) => if k = c && selValid g m l x then some x else none).or (candidate g m l c)

/-! ### The injection link -/

/-- Put flits on the injection link in consecutive fc, each with at most one credit for the ejection side (R36, R41). -/
def pushFlits (g : Gen) (l : Nat) (p : Pkt) (vc : Nat) : Mach → List Nat → Mach
  | m, [] => m
  | m, i :: rest =>
    let cr := (m.ni l).rx.credits.head?
    let m := m.pushWire (.rtr (g.niRouter l) (g.niPort l)) (p.flit p.flits i vc (m.ni l).tx.lseq cr)
    let m := m.updRx l fun x => { x with credits := x.credits.drop 1 }
    pushFlits g l p vc (m.updTx l fun t => { t with lseq := (t.lseq + 1) % 256 }) rest

/-- A packet leaves on the injection link; one that fits no free run is discarded there (R213). -/
def transmit (g : Gen) (m : Mach) (l : Nat) (p : Pkt) (drop : Bool) : Mach :=
  if drop then
    let m := m.cntN g l 0x22
    let m := if (m.ni l).tx.noFitLogged then m else logEv g m (logN l) 0x0B (g.niPort l) 0 p.flits
    m.updTx l fun t => { t with noFitLogged := true }
  else
    let vc := p.hdr.vc
    let busy := m.now + fcUnits p.flits
    let m := if p.hdr.k = 0 then m else m.updTx l fun t => { t with cr := t.cr.put vc (t.cr.getD vc 0 - p.flits), busy := busy }
    pushFlits g l p vc ((m.emit (.inject l p)).updN l fun n => { n with used := m.now }) (List.range p.flits)

/-- The first LA_PORT (R44, R103); 0 in multicast and class-0 headers (R133, R175). -/
def firstLa (g : Gen) (m : Mach) (l : Nat) (h : Hdr) : BitVec 3 :=
  if h.mcast || h.k = 0 then 0
  else match resolve g m (g.niRouter l) h with
    | some t => BitVec.ofNat 3 (outPort g (g.niRouter l) t.1 t.2)
    | none => 0

/-- The NI of a dead link or beside a dead domain (R411, R441). -/
def injDead (g : Gen) (m : Mach) (l : Nat) : Bool := (m.ni l).rx.dead || (m.dom (g.region (g.niRouter l))).dead

/-- A destination the initiator NI itself finds unreachable: a dead partner (R411), a multicast group it may not inject to
(R20, R132), a local ID of its own node that is not populated (R21), and a node that its resolution for its own router finds
without a route (R98, R103). -/
def unreachableHere (g : Gen) (m : Mach) (l : Nat) (h : Hdr) : Bool :=
  injDead g m l ||
  (if h.mcast then
    1024 ≤ h.dest.toNat || !bit (m.groupEntry g (h.dest.toNat % 1024) (g.niRouter l)) 7 || !m.groupEnabled g (h.dest.toNat % 1024)
  else (resolve g m (g.niRouter l) h).isNone)

/-! ### Step 7 -/

/-- The fields the NI writes (R43, R45, R46), E2E_CRC last (R88). A TAG is kept only in a response and a coherence
command. -/
def stamp (g : Gen) (m : Mach) (l : Nat) (org : Origin) (tag seq : Nat) (p : Pkt) : Pkt :=
  let h := p.hdr
  let t : BitVec 12 := if h.np then BitVec.ofNat 12 tag else if isResponse h.c || isCoherence h.c then h.tag else 0
  let v : BitVec 10 := match org with
    | .agent => h.vport
    | _ => if isResponse h.c then h.vport else 0
  let h := { h with src := m.fid g l }
  let h := { h with vport := v, tag := t, seq := BitVec.ofNat 16 seq, injTime := BitVec.ofNat 32 m.ns,
                    dateline := false, rsvId := 0, laPort := firstLa g m l h }
  ({ p with hdr := h } : Pkt).seal

/-- SEQ of the flow's next packet, with its entry (R74, R261). -/
def nextSeq (m : Mach) (l : Nat) (k : FlowKey) : Nat := (((m.ni l).tab.src.find? fun f => f.key == k).map (·.next)).getD 0

def flowClosed (m : Mach) (l : Nat) (k : FlowKey) : Bool := ((m.ni l).tab.src.find? fun f => f.key == k).any (·.closed)

/-- Take the source flow entry of step 2 (R247): a new one starts at SEQ 0. -/
def takeFlow (m : Mach) (l : Nat) (k : FlowKey) : Mach :=
  let now := m.now
  m.updTab l fun t => if t.src.any fun f => f.key == k then t else { t with src := t.src ++ [⟨k, 0, false, now⟩] }

def bumpFlow (m : Mach) (l : Nat) (k : FlowKey) : Mach :=
  let now := m.now
  (takeFlow m l k).updTab l fun t =>
    { t with src := t.src.map fun f => if f.key = k then { f with next := (f.next + 1) % 65536, lastInj := now } else f }

/-- The mirror's copy of a packet as injected (R228). -/
def mirrorCopy (g : Gen) (m : Mach) (l : Nat) (seq : Nat) (p : Pkt) : Pkt :=
  let dest := m.reg g (niKey l 0x22) / 65536
  let h := { Hdr.zero with dest := BitVec.ofNat 16 dest, vn := 4, cls := 3, cmd := 0x80, len := 128, vport := p.hdr.vport,
                           addr := BitVec.ofNat 56 (0xA5 * 2 ^ 48 + seq) }
  ⟨h, [p.hdr.bits, p.data.headD 0], false, []⟩

/-- Count an eligible packet, and copy the N-th (R225-R229). -/
def mirrorOne (g : Gen) (m : Mach) (l : Nat) (p : Pkt) : Mach :=
  let w := m.reg g (niKey l 0x22)
  if l = 0 || !bit w 0 || !bit w (10 + p.hdr.v) || !bit w (6 + p.hdr.k) then m
  else if (m.ni l).tx.mirrorCount + 1 < 2 ^ fld w 5 1 then m.updTx l fun t => { t with mirrorCount := t.mirrorCount + 1 }
  else
    let m := (m.updTx l fun t => { t with mirrorCount := 0 }).addWrap g (niKey l 0x23) 1
    if 4 ≤ (m.ni l).tx.mirror.length then m.cntN g l 0x20
    else
      let c := mirrorCopy g m l (m.reg g (niKey l 0x23)) p
      (m.updTx l fun t => { t with mirror := t.mirror ++ [c] }).cntN g l 0x1F

/-- Count a non-posted request of the agent for sampling (R504); the answer says whether it is selected. -/
def sampleOne (g : Gen) (m : Mach) (l : Nat) (h : Hdr) : Mach × Bool :=
  let w := m.reg g (key (0xA200 + l) 0x83)
  if !g.isInit l || !bit w 0 || !bit w (6 + h.k) then (m, false)
  else if (m.ni l).tx.sampleCount + 1 < 2 ^ fld w 5 1 then (m.updTx l fun t => { t with sampleCount := t.sampleCount + 1 }, false)
  else (m.updTx l fun t => { t with sampleCount := 0 }, true)

/-- Number one packet, keep it, and count it as injected (R74, R262, R498). -/
def numberOne (g : Gen) (m : Mach) (l : Nat) (org : Origin) (tag : Nat) (p : Pkt) : Mach × Pkt :=
  let h := p.hdr
  let k := { h.flow with src := m.fid g l }
  let q := stamp g m l org tag (if isInternal h.c then 0 else nextSeq m l k) p
  let m := if isInternal h.c then m else bumpFlow m l k
  let m := if h.kept then
      let d := m.now + retxTimeoutLen g m l
      m.updTab l fun t => { t with retx := t.retx ++ [⟨q, org, !h.np, 0, d⟩] }
    else m
  ((m.cntN g l h.v).cntN g l 0x0C h.n, q)

/-- A free fabric tag, in rotation (R252), and the table with it reserved for a request. -/
def takeTag (g : Gen) (m : Mach) (l : Nat) (e : TagEnt) : Mach × Nat :=
  let t := (m.ni l).tab
  let lim := tagLimit g m l
  let from_ := t.nextTag % max lim 1
  let tag := ((t.tags.lowestFree from_ (lim - from_)).orElse fun _ => t.tags.lowestFree 0 from_).getD 0
  (m.updTab l fun t => { t with tags := t.tags.put tag e, nextTag := (tag + 1) % max lim 1 }, tag)

/-- Take the tags of step 2 for the parts of a request (R247), with the split record of a split one. -/
def takeTags (g : Gen) (m : Mach) (l : Nat) (org : Origin) (req : Hdr) (parts : List Pkt) (sampled : Bool) : Mach × List Nat :=
  if !req.np then (m, [])
  else
    let now := m.ft
    let orphan := org == .agent && (m.ni l).ep.st == .agentDown
    let ent (h : Hdr) (part low : Nat) : TagEnt :=
      { org := org, agentTag := req.tag, part := part, low := low, hdr := h, req := req, issue := now, deadline := 0, fired := false,
        orphan := orphan, sampled := sampled }
    match parts with
    | [a, b] =>
      let (m, t1) := takeTag g m l (ent a.hdr 1 0)
      let (m, t2) := takeTag g m l (ent b.hdr 2 t1)
      let m := m.updTab l fun t =>
        { t with tags := t.tags.upd t1 (fun e => { e with low := t1 })
                 splits := t.splits.put t1 ⟨isRead req.c, req.n, none, none, [], [], ⟨req, now, true, sampled⟩⟩ }
      (m, [t1, t2])
    | p :: _ =>
      let (m, t1) := takeTag g m l (ent p.hdr 0 0)
      (m, [t1])
    | [] => (m, [])

/-- Take the step 2 resources of a request: tags with their merge entry, and the source flow entry; the space in the retransmit
store is counted from where the packet stands (R247). -/
def takeStep2 (g : Gen) (m : Mach) (l : Nat) (org : Origin) (req : Hdr) (parts : List Pkt) : Mach × List Nat :=
  let (m, tags) := takeTags g m l org req parts false
  (if isInternal req.c then m else takeFlow m l { req.flow with src := m.fid g l }, tags)

/-- Free what step 2 took. -/
def dropTags (m : Mach) (l : Nat) (tags : List Nat) : Mach :=
  tags.foldl (fun m t => m.updTab l fun x => { x with tags := x.tags.del t, splits := x.splits.del t }) m

/-- Issue numbered parts: start their timers (R253), mirror them, send the first and leave the second for the next start. -/
def issueParts (g : Gen) (m : Mach) (l : Nat) (org : Origin) (tags : List Nat) (parts : List Pkt) (drop : Bool) : Mach :=
  let now := m.ft
  let (m, qs) := (parts.zipIdx).foldl (fun (acc : Mach × List Pkt) (p, i) =>
    let (m, q) := numberOne g acc.1 l org (tags.getD i 0) p
    let m := match tags[i]? with
      | some t => m.updTab l fun x => { x with tags := x.tags.upd t fun e =>
          { e with hdr := q.hdr, issue := now, deadline := m.now + npTimeout g m l } }
      | none => m
    let m := if org = .agent && l ≠ 0 then mirrorOne g m l q else m
    (m, acc.2 ++ [q])) (m, [])
  match qs with
  | [] => m
  | q :: rest => (transmit g m l q drop).updTx l fun t => { t with second := t.second ++ rest }

/-- Step 7 (R247) for a request with its step 2 resources. -/
def step7 (g : Gen) (m : Mach) (l : Nat) (org : Origin) (req : Hdr) (issue : Nat) (tags : List Nat) (parts : List Pkt) (drop : Bool) : Mach :=
  let k := { req.flow with src := m.fid g l }
  if unreachableHere g m l req then
    let m := dropTags m l tags
    if req.np then refuseOwn g m l org req stUnreachable issue else unreachableAtNi g m l req
  else if flowClosed m l k && !isInternal req.c then
    let m := dropTags m l tags
    if req.np then refuseOwn g m l org req stRetryExhausted issue
    else
      let m := parts.foldl (fun m _ => m.cntN g l 0x27) m
      if isCoherence req.c && l ≠ 0 then m.addWrap g (niKey l 0x30) 1 else m
  else
    let (m, sampled) := if req.np && org = .agent then
        let (m, s) := sampleOne g m l req
        (m.cntN g l 0x10, s)
      else (m, false)
    let m := if sampled then tags.foldl (fun m t => m.updTab l fun x =>
        { x with tags := x.tags.upd t fun e => { e with sampled := true } }) m else m
    issueParts g m l org tags parts drop

/-! ### Steps 3 to 7 for a header from a channel or a send queue -/

/-- ID_CLASS and VPORT of R355. -/
def identity (g : Gen) (m : Mach) (l : Nat) (org : Origin) (h : Hdr) : Nat × Nat :=
  match org with
  | .agent => (fld (m.reg g (vpKey 0x4800 l h.vport.toNat)) 30 29, h.vport.toNat)
  | _ => (3, 0)

/-- The guard on every resulting packet (R367): the first part denied, and why. -/
def guardParts (g : Gen) (m : Mach) (l : Nat) (org : Origin) (parts : List Pkt) : Option (Hdr × Denial) :=
  if l = 0 then none
  else parts.findSome? fun p =>
    let (c, v) := identity g m l org p.hdr
    (judge g m l c v p.hdr).map fun d => (p.hdr, d)

/-- Steps 3 to 7 (R247), with the tags the header has kept from step 2, if any (R248); what it took is freed where it is denied or
policed. The answer says whether the packet was injected. -/
def processHeader (g : Gen) (m : Mach) (l : Nat) (org : Origin) (req : Hdr) (parts : List Pkt) (kept : Option (List Nat)) (drop : Bool) :
    Mach × Bool :=
  let now := m.ft
  match guardParts g m l org parts with
  | some (h, d) =>
    let (c, v) := identity g m l org h
    let m := dropTags m l (kept.getD [])
    (refuseOwn g (recordDenial g m l c v req.tag.toNat h d) l org req stGuardDenied now, false)
  | none =>
    let flits := totalFlits parts
    let policed := req.v = 4 && l ≠ 0
    if policed && !(m.ni l).tx.mBucket.passes (mPolice g m l) flits then
      ((((dropTags m l (kept.getD [])).addWrap g (niKey l 0x24) 1)).cntN g l 0x1B, false)
    else
      let m := if policed then m.updTx l fun t => { t with mBucket := t.mBucket.charge (mPolice g m l) flits } else m
      let hold := mustHold g m l org req parts
      let (m, tags) := match kept with
        | some tags => (m, tags)
        | none => takeStep2 g m l org req parts
      if hold then
        (((m.updTx l fun t => { t with held := t.held ++ [⟨org, req.tag, parts, tags, req, now⟩] })).cntN g l 0x1A, false)
      else
        let m := if isShaped org req then chargeBuckets g m l org req flits else m
        (step7 g m l org req now tags parts drop, true)

/-- Take the entry of a head that kept its step 2 resources. -/
def takeKept (m : Mach) (l : Nat) (f : From) : Mach × Option (List Nat) :=
  match f.place, keptOf (m.ni l) f with
  | some n, some k => (m.updTx l fun t => { t with kept := t.kept.del n }, some k.tags)
  | _, _ => (m, none)

/-- A head that kept its step 2 resources is discarded: they are freed. -/
def dropKept (m : Mach) (l : Nat) (f : From) : Mach :=
  let (m, tags) := takeKept m l f
  dropTags m l (tags.getD [])

/-- While the held store has no room for it, the head of a channel or send queue that needs it waits after step 3 with its step 2
resources (R248). -/
def keepHead (g : Gen) (m : Mach) (l : Nat) (f : From) (org : Origin) (p : Pkt) : Mach :=
  let parts := splitParts p
  match f.place with
  | some n =>
    if p.hdr.k ≠ 0 && !isResponse p.hdr.c && (keptOf (m.ni l) f).isNone && (lacks g m l org parts).isNone &&
        mustHold g m l org p.hdr parts && !heldRoom g m l parts then
      let (m, tags) := takeStep2 g m l org p.hdr parts
      m.updTx l fun t => { t with kept := t.kept.put n ⟨parts, tags⟩ }
    else m
  | none => m

/-- Resources kept for a head that is gone, as its context ended, are freed. -/
def cleanKept (g : Gen) (m : Mach) (l : Nat) : Mach :=
  let head (n : Nat) : Option Pkt :=
    if n < 8 then ((m.ni l).ep.ingress.getD n []).head? else (((sendHeads g m l).find? fun x => x.1 + 8 == n).map fun x => x.2.pkt)
  (m.ni l).tx.kept.foldl (fun m (n, k) =>
    if (head n).map splitParts = some k.parts then m
    else dropTags (m.updTx l fun t => { t with kept := t.kept.del n }) l k.tags) m

def keepHeads (g : Gen) (m : Mach) (l : Nat) : Mach :=
  if l = 0 then m
  else
    let m := cleanKept g m l
    let m := (List.range 6).foldl (fun m ch =>
      match ((m.ni l).ep.ingress.getD ch []).head? with
      | some p => keepHead g m l (.chan ch) .agent p
      | none => m) m
    (sendHeads g m l).foldl (fun m (i, e) => keepHead g m l (.engine i) (.engine i e.ctx) e.pkt) m

/-- Take a candidate into I1. The answer says whether it was injected. -/
def enterStage (g : Gen) (m : Mach) (l c : Nat) (x : Cand) (drop : Bool) : Mach × Bool :=
  match x.frm, x.parts with
  | _, [] => (m, false)
  | .second, p :: _ => (transmit g (m.updTx l fun t => { t with second := t.second.erase p }) l p drop, true)
  | .retx, p :: _ =>
    let m := m.updTx l fun t => { t with retxQ := t.retxQ.erase p }
    if unreachableHere g m l p.hdr then
      if p.hdr.np then
        match (m.ni l).tab.tags.get? p.hdr.tag.toNat with
        | some e =>
          let m := dropRetx (freeTag m l p.hdr.tag.toNat) l (· == p)
          (if e.fired then m else tagOutcome g m l e (ownRsp g m l p.hdr stUnreachable) false, true)
        | none => (m, true)
      else (unreachableAtNi g m l p.hdr, true)
    else
      let d := m.now + retxTimeoutLen g m l
      let m := m.updTab l fun t =>
        { t with retx := t.retx.map (fun y => if y.pkt = p then { y with deadline := d } else y)
                 src := t.src.map fun f => if f.key = p.hdr.flow then { f with lastInj := m.now } else f }
      (transmit g (m.cntN g l 0x13) l { p with hdr := { p.hdr with laPort := firstLa g m l p.hdr } } drop, true)
  | .internal, p :: _ =>
    let m := m.updTx l fun t => { t with internal := t.internal.erase p }
    let m := m.updTab l fun t => { t with answered := t.answered.filter fun h => !(h.src == p.hdr.dest && h.tag == p.hdr.tag && isResponse p.hdr.c) }
    (step7 g m l (.shuttle 0) p.hdr m.ft [] [p] drop, true)
  | .held, ps =>
    -- the scheduler's own choice, or the packet it chose before, which waited under the gate
    let pick := match heldPick g m l c with
      | some (hd, m') =>
        if hd.parts = ps then some (hd, m')
        else ((m.ni l).tx.held.find? fun (h : Held) => h.parts == ps).map fun h =>
          (h, m.updVp l (heldVport h) fun x => { x with deficit := x.deficit - 64 * totalFlits ps })
      | none => none
    match pick with
    | none => (m, false)
    | some (hd, m) =>
      let m := m.updTx l fun t => { t with held := t.held.erase hd }
      let m := chargeBuckets g m l hd.org hd.req (totalFlits ps)
      (step7 g m l hd.org hd.req hd.issue hd.tags ps drop, true)
  | .chan ch, ps =>
    match ((m.ni l).ep.ingress.getD ch []).head? with
    | none => (m, false)
    | some p =>
      let m := m.updEp l fun e => { e with ingress := e.ingress.put ch ((e.ingress.getD ch []).drop 1) }
      let m := m.updTx l fun t => { t with rot := t.rot.set (c - 1) ((ch + 1) % 6) }
      let m := if l = 0 then m else returnIngress m l ch p.flits
      let (m, kept) := takeKept m l x.frm
      if isResponse p.hdr.c || l = 0 then
        let m := m.updTab l fun t => { t with answered := t.answered.filter fun h => !(h.src == p.hdr.dest && h.tag == p.hdr.tag && isResponse p.hdr.c) }
        let (m, tags) := takeTags g m l x.org p.hdr ps false
        (step7 g m l x.org p.hdr m.ft tags ps drop, true)
      else processHeader g m l x.org p.hdr ps kept drop
  | .engine i, ps =>
    match (m.eng i).sendQ.head? with
    | none => (m, false)
    | some e =>
      let m := m.updE i fun y =>
        { y with sendQ := y.sendQ.drop 1, ctxs := y.ctxs.map fun (n, z) => (n, if z.st = .waitSend then z.wake m.now else z) }
      let (m, kept) := takeKept m l x.frm
      processHeader g m l x.org e.pkt.hdr ps kept drop
  | .mirror, p :: _ =>
    let m := m.updTx l fun t => { t with mirror := t.mirror.erase p }
    if unreachableHere g m l p.hdr then (unreachableAtNi g m l p.hdr, true)
    else if flowClosed m l { p.hdr.flow with src := m.fid g l } then (m.cntN g l 0x27, true)
    else
      let (m, q) := numberOne g m l .agent 0 p
      (transmit g m l q drop, true)

/-! ### The two rows -/

/-- A flow of NI l holds a packet: in the retransmit store, in the held store, or at a head that keeps its resources (R261). -/
def flowHolds (g : Gen) (m : Mach) (l : Nat) (k : FlowKey) : Bool :=
  let n := m.ni l
  !(heldOf n k).isEmpty || (retxTaken n).any fun p => { p.hdr.flow with src := m.fid g l } == k

/-- Source entries of flows that have injected nothing for FLOW_IDLE_TIME: a closed flow reopens with SEQ 0 (R265), and one that
holds no packet is freed (R261). -/
def purgeSrc (g : Gen) (m : Mach) (l : Nat) : Mach :=
  let idle := flowIdle g m l
  let late (f : SrcFlow) : Bool := f.lastInj + idle ≤ m.now
  let keep := (m.ni l).tab.src.filter fun f => !late f || flowHolds g m l f.key
  let reopened := keep.map fun f => if f.closed && late f then { f with closed := false, next := 0 } else f
  m.updTab l fun t => { t with src := reopened }

/-- An idle injection cycle may still carry a credit (R35, R36). -/
def idleInjection (g : Gen) (m : Mach) (l : Nat) : Mach :=
  match (m.ni l).rx.credits with
  | [] => m
  | v :: rest => (m.pushWire (.rtr (g.niRouter l) (g.niPort l)) (idleFlit (some v))).updRx l fun x => { x with credits := rest }

/-- A class's deficit without the charge of a start that did not come about (R210). -/
def Arb.uncharge (a : Arb) (c n : Nat) : Arb := { a with dw := a.dw.set c (a.dw.d c + 64 * n) (a.dw.fr c) }

/-- Flits of the packet of a class at the injection stage. -/
def stageFlits (g : Gen) (m : Mach) (l c : Nat) : Option Nat := (stageCand g m l c).bind fun x => x.parts.head?.map (·.flits)

/-- A class and a virtual port with no packet keep no deficit (R206, R286). -/
def stageSettle (g : Gen) (m : Mach) (l : Nat) : Mach :=
  let m := vpSettle m l
  let t := (m.ni l).tx
  let a := Arb.settle ⟨t.dw, t.w, t.wNew⟩ (stageFlits g m l)
  m.updTx l fun t => { t with dw := a.dw }

/-- The choice of the injection stage in this fc (R203, R205, R209-R213): the arbiter's pick with the candidates. -/
def injChoice (g : Gen) (m : Mach) (l : Nat) : Pick × Arb :=
  let t := (m.ni l).tx
  Arb.pick ⟨t.dw, t.w, t.wNew⟩ (t.sel.map (·.1)) (stageFlits g m l) (fun n => m.injFits g l n) t.maxRun

/-- The class a pick takes from, and whether it is discarded there. -/
def Pick.class? : Pick → Option (Nat × Bool)
  | .start c => some (c, false)
  | .fill _ f _ => some (f, false)
  | .drop c => some (c, true)
  | _ => none

/-- The injection stage as it makes its choice: at the first fc in which the injection link is free (R211, log 5), tables and
buckets brought up to date. -/
def stageReady (g : Gen) (m : Mach) (l : Nat) : Mach :=
  let m := m.advanceTo (m.ni l).tx.busy
  stageSettle g (keepHeads g (refillAll g (purgeSrc g m l) l) l) l

/-- What the injection stage takes with a pick: class, whether it is discarded, the packet. -/
def stageTakes (g : Gen) (m : Mach) (l : Nat) (pk : Pick) : Option (Nat × Bool × Cand) :=
  pk.class?.bind fun (c, d) => (stageCand g m l c).map fun x => (c, d, x)

/-- The bridge to the router takes the candidate's packet (R405). -/
def stageRoom (g : Gen) (m : Mach) (l : Nat) (x : Cand) : Bool :=
  bridgeRoom g m (.rtr (g.niRouter l) (g.niPort l)) ((x.parts.head?.map (·.flits)).getD 0)

/-- One fc of the injection stage; it acts only when its choice is from the held store (`held`) or only when it is not. -/
def injectionStage (g : Gen) (m0 : Mach) (l : Nat) (held : Bool) : Mach :=
  if !m0.awake (g.niDom l) || (m0.ni l).rx.resetting || (m0.ni l).ep.waiting then m0
  else
    let m := stageReady g m0 l
    let (pk, a) := injChoice g m l
    let x := stageTakes g m l pk
    if (x.map fun (_, _, x) => x.frm == .held).getD false ≠ held then m0
    else if (x.map fun (_, d, x) => !d && !stageRoom g m l x).getD false then idleInjection g m l
    else
      let sel := match pk with
        | .wait c _ | .fill c _ _ => (stageCand g m l c).map fun x => (c, x)
        | _ => none
      let new := match pk with
        | .wait _ n | .fill _ _ n => n
        | _ => false
      let m := m.updTx l fun t => { t with sel := sel, dw := a.dw, w := a.w, wNew := a.wNew }
      let m := if new then m.cntN g l 0x21 else m
      match x with
      | none => idleInjection g m l
      | some (c, drop, x) =>
        let (m, sent) := enterStage g m l c x drop
        stageSettle g (if sent || drop then m
          else m.updTx l fun t => { t with dw := (Arb.uncharge ⟨t.dw, t.w, t.wNew⟩ c ((x.parts.head?.map (·.flits)).getD 0)).dw }) l

/-- An uncorrectable error in NI state resets the NI (R447); its bridge carries the reset to its router (R410). -/
def niStateEcc (g : Gen) (m : Mach) (l : Nat) : Mach :=
  let m := niReset g (logEv g m (logN l) 0x12) l
  let r := g.niRouter l
  let p := g.niPort l
  let m := killQueue g m r p
  let m := resetReceiver g ((m.setWire (.rtr r p) []).setWire (.ni l) []) (.rtr r p)
  let m := m.updIn r p fun i => { i with resetting := false, lseq := 0 }
  m.updOut r p fun o => { o with cr := fullCredits, lseq := 0 }

/-- INJECTION_ADMIT (R246, R247): `e` is an error met in a table entry that the header's lookups read, `stateErr` an
uncorrectable error in the NI's own state. -/
def injectionAdmit (l : Nat) (e : Option TabErr) (stateErr : Bool) (g : Gen) (m : Mach) : Mach :=
  let m := (e.map (tableError g m)).getD m
  if stateErr then niStateEcc g m l else injectionStage g m l false

def execInjectionAdmit (l : Nat) (e : Option TabErr) (stateErr : Bool) (s : State) :=
  s.runIf (s.gen.hasNi l) (injectionAdmit l e stateErr)

/-- HELD_STORE_RELEASE (R248, R286). -/
def heldStoreRelease (l : Nat) (g : Gen) (m : Mach) : Mach := injectionStage g m l true

def execHeldStoreRelease (l : Nat) (s : State) := s.runIf (s.gen.hasNi l) (heldStoreRelease l)

end Sys2Proof.Machine
end

