-- ==== Sys2Proof/Machine/Class0.lean ====
section
/-! DEFINITION. Class 0 at its source NI: the contract (R172, R173), the thread queues (R174, R176), the starts (R171, R175)
and their suppression before a bank switch (R195). -/

namespace Sys2Proof.Machine

open Sys2Proof

def c0Key (l sub : Nat) : Nat := key (0x3600 + l) sub

/-- The pricking is active in this slot (R172, R188). -/
def prkActive (m : Mach) : Bool := (m.bankAt m.time.sc).2 != 0 && m.prk.st != .idle

/-- The flow of a class-0 packet within contract (R172). DEDUCED (log 26): a non-posted packet that finds no fabric tag is
not within contract. -/
def c0Contract (g : Gen) (m : Mach) (l : Nat) (p : Pkt) : Option (Nat × Nat) :=
  if !prkActive m || p.hdr.mcast then none
  else (c0Src m l p.hdr.dest p.hdr.v).filter fun (j, w) =>
    p.flits ≤ fld w 122 120 && (!p.hdr.np || bit w 126) && c0Empty m l j &&
      (!p.hdr.np || (m.ni l).tab.tags.length < tagLimit g m l)

/-- One copy as it is injected (R175). -/
def c0Copy (g : Gen) (m : Mach) (l rsv : Nat) (p : Pkt) : Pkt :=
  ({ p with hdr := { p.hdr with src := m.fid g l, rsvId := BitVec.ofNat 16 rsv, injTime := BitVec.ofNat 32 m.ns, dateline := false,
                                laPort := 0 } } : Pkt).seal

/-- A class-0 request crosses the endpoint port, its checks passed: guard (R352), contract, queues, mirror (R226). -/
def c0Accept (g : Gen) (m : Mach) (l : Nat) (p : Pkt) : Mach :=
  let h := p.hdr
  match guardParts g m l .agent [p] with
  | some (x, d) =>
    let (c, v) := identity g m l .agent x
    refuseOwn g (recordDenial g m l c v h.tag.toNat x d) l .agent h stGuardDenied m.ft
  | none =>
    match c0Contract g m l p with
    | none =>
      if h.np then refuseOwn g m l .agent h stPoliced m.ft
      else (m.addWrap g (c0Key l 1) 1).cntN g l 0x1C
    | some (j, w) =>
      let (m, tags) := takeTags g m l .agent h [p] false
      let d := m.now + npTimeout g m l
      let m := tags.foldl (fun m t => m.updTab l fun x => { x with tags := x.tags.upd t fun e => { e with deadline := d } }) m
      let tag : BitVec 12 := match tags with
        | t :: _ => BitVec.ofNat 12 t
        | [] => if isResponse h.c || isCoherence h.c then h.tag else 0
      let seq := (m.ni l).tx.c0seq.getD j 0
      let q := { p with hdr := { h with tag := tag, seq := BitVec.ofNat 16 seq } }
      let m := c0Queue m l j w q
      mirrorOne g ((m.cntN g l h.v).cntN g l 0x0C h.n) l (c0Copy g m l (rsvA w) q)

/-- Thread t of source descriptor w starts in the slot after next (R171, R177): the first-link slots of its reservation in the bank
of this slot. DEDUCED (log 173): a start of an armed bank whose first-link slot is A or A + 1 would be decided before the NI
switches (R194), so it is not taken. -/
def c0IsStart (g : Gen) (m : Mach) (l rsv : Nat) : Bool :=
  let (b, per) := m.bankAt m.time.sc
  per != 0 && (List.range 7).any fun o => (bankEntries b (g.niRouter l) o).any fun e =>
    e.inPort == g.niPort l && e.id == rsv && e.start % per == (m.time.sc + 2) % per

/-- A start is suppressed when its copy would occupy a slot at or after an armed activation (R195). -/
def c0Suppressed (m : Mach) (span : Nat) : Bool :=
  (m.prk.st == .activeArmed || m.prk.st == .armed) && m.time.sc < m.prk.slot && m.prk.slot ≤ m.time.sc + 2 + span

/-- A response of the agent on its class-0 flow (R176); it is eligible for mirroring once, as it is accepted, with the SEQ it will
have (R226, R174). -/
def c0Respond (g : Gen) (m : Mach) (l j w : Nat) (p : Pkt) : Mach :=
  let t := (m.ni l).tx
  let q := { p with hdr := { p.hdr with seq := BitVec.ofNat 16 (t.c0seq.getD j 0 + (t.c0rsp.getD j []).length) } }
  mirrorOne g (c0Enqueue m l j w p) l (c0Copy g m l (rsvA w) q)

/-- Responses that wait in the buffer of channel 7 join their flows' queues while these have fewer than 16, and channel 7 gets
back the credit it lacks (R176, R242). -/
def c0Pull (g : Gen) (l : Nat) : Nat → Mach → Mach
  | 0, m => m
  | fuel + 1, m =>
    match (m.ni l).ep.ingress.getD 7 [] with
    | [] => m
    | p :: rest =>
      match c0Src m l p.hdr.dest 2 with
      | some (j, w) =>
        if 16 ≤ ((m.ni l).tx.c0rsp.getD j []).length then m
        else c0Pull g l fuel (c0Respond g (m.updEp l fun e => { e with ingress := e.ingress.put 7 rest }) l j w p)
      | none => c0Pull g l fuel (m.updEp l fun e => { e with ingress := e.ingress.put 7 rest })

/-- The next response of a flow whose thread queues have emptied, and what that makes room for. -/
def c0Next (g : Gen) (m : Mach) (l j w : Nat) : Mach :=
  grantChannel (c0Pull g l 5 (c0Load m l j w)) l 7

/-- C0_START (R171, R174, R175): at a start of reservation `rsv`, the copy queued for its thread is injected. -/
def c0Start (l rsv : Nat) (g : Gen) (m : Mach) : Mach :=
  match (c0Descs m 0x3400 l).find? fun (_, w) => rsv != 0 && (rsvA w == rsv || rsvB w == rsv) with
  | none => m
  | some (j, w) =>
    if !c0IsStart g m l rsv then m
    else
      let t := if rsvA w = rsv then 0 else 1
      match (m.ni l).tx.c0q.get? (2 * j + t) with
      | none => m
      | some p =>
        if c0Suppressed m (if t = 0 then fld w 63 48 else fld w 47 32) then
          (m.addWrap g (c0Key l 5) 1).orReg g (key 0x3100 6) 2
        else
          let first := (m.ni l).tx.c0q.has (2 * j + (1 - t)) || rsvB w = 0
          let m := m.updTx l fun x => { x with c0q := x.c0q.del (2 * j + t) }
          let d := m.now + npTimeout g m l
          let m := if p.hdr.np && first then
              m.updTab l fun x => { x with tags := x.tags.upd p.hdr.tag.toNat fun e => { e with issue := m.ft, deadline := d } }
            else m
          c0Next g (transmit g (m.cntN g l 0x0E) l (c0Copy g m l rsv p) false) l j w

def execC0Start (l rsv : Nat) (s : State) := s.runIf (s.gen.hasNi l) (c0Start l rsv)

end Sys2Proof.Machine
end

