-- ==== Sys2Proof/Machine/Endpoint.lean ====
section
/-! DEFINITION. The endpoint port: opening, AGENT_DOWN and quarantine (R242, R268, R269, R449-R451), ingress with step 1 of
R247, responses of the agent (R258) and memory-port answers (R327, R329), and egress (R241, R243, R256, R257, R335, R73). -/

namespace Sys2Proof.Machine

open Sys2Proof

/-! ### AGENT_DOWN and local violations -/

/-- Entering AGENT_DOWN (R268). What waits in the ejection FIFOs has been taken from the fabric and cannot be presented: requests
are answered, posted packets counted (log 20). DEDUCED (log 166): the tags it orphans are those whose completions the port would
present; an engine's and the Shuttle's go on. -/
def enterAgentDown (g : Gen) (m : Mach) (l : Nat) : Mach :=
  let n := m.ni l
  let fifo := (n.ep.eject.flatMap (·.2)).filter fun e => e.req.isNone && !e.drop
  let m := (n.ep.eject.flatMap (·.2)).foldl (fun m e => ejectCredits m l e.pkt e.cred) m
  let m := (m.updEp l fun e => { e with st := .agentDown, inCr := [], egCr := [], eject := [] }).stopTimer (.mEject l)
  let m := m.updTab l fun t =>
    { t with tags := t.tags.map (fun (k, e) => (k, if e.org = .agent then { e with orphan := true } else e)), pending := [] }
  let m := failMemory g m l stUnreachable
  let m := n.tab.pending.foldl (fun m h => answer g m l h stUnreachable) m
  fifo.foldl (fun m e => if e.pkt.hdr.np then answer g m l e.pkt.hdr stUnreachable else m.cntN g l 0x29) m

/-- Violations counted within the window (R451). -/
def violationsInWindow (g : Gen) (m : Mach) (l : Nat) : Nat :=
  let n := m.ni l
  let w := m.cfg g (key 0x9800 5)
  m.reg g (niKey l 0x40) - (if n.pvTicks.length < w then n.pvBase else n.pvTicks.getD (w - 1) n.pvBase)

/-- A local violation of a kind (R449, R526), with the quarantine of R451. -/
def localViolation (g : Gen) (m : Mach) (l kind : Nat) : Mach :=
  let m := logEv g ((m.addWrap g (niKey l 0x40) 1).cntN g l 0x2A) (logN l) 0x0E 0 0 kind
  if m.cfg g (key 0x9800 4) < violationsInWindow g m l && !(m.ni l).ep.quarantined then
    let m := (enterAgentDown g m l).updEp l fun e => { e with quarantined := true }
    logEv g (m.setReg (niKey l 0x42) 1) (logN l) 0x0F
  else m

/-- Open the port (R242): credit for every free place, buckets full (R218), no egress credit yet (R243). -/
def openPort (g : Gen) (m : Mach) (l : Nat) : Mach :=
  let m := m.updEp l fun e => { e with st := .opened, inCr := [], egCr := [] }
  let m := grantIngress m l
  let now := m.ft
  let ni := niShape g m l
  let mp := mPolice g m l
  let vps := (m.ni l).vps.map fun (v, x) => (v, { x with bucket := Bucket.full (vpShape g m l v) now })
  (m.updN l fun n => { n with vps := vps }).updTx l fun t =>
    { t with niBucket := Bucket.full ni now, mBucket := Bucket.full mp now }

/-- The port is OPENING and every condition of R242 holds: it opens, or goes to AGENT_DOWN without a ready agent (R268). -/
def tryOpen (g : Gen) (m : Mach) (l : Nat) : Mach :=
  let n := m.ni l
  if n.ep.st ≠ .opening || n.ep.waiting then m
  else if !n.ep.rdy || n.ep.quarantined || n.ep.needFall then enterAgentDown g m l
  else if n.fs = .running then openPort g m l
  else m

/-! ### The ready line of the agent -/

/-- AGENT_RDY_RISE (R245, R268, R451). -/
def agentRdyRise (l : Nat) (g : Gen) (m : Mach) : Mach :=
  let e := (m.ni l).ep
  if e.rdy then m
  else
    let m := m.updEp l fun e => { e with rdy := true }
    if e.quarantined || e.needFall then m
    else match e.st with
      | .agentDown => tryOpen g (m.updEp l fun e => { e with st := .opening }) l
      | .opening => tryOpen g m l
      | _ => m

def execAgentRdyRise (l : Nat) (s : State) := s.runIf (s.gen.hasNi l) (agentRdyRise l)

/-- AGENT_RDY_FALL (R245, R268). -/
def agentRdyFall (l : Nat) (g : Gen) (m : Mach) : Mach :=
  let e := (m.ni l).ep
  if !e.rdy then m
  else
    let m := m.updEp l fun e => { e with rdy := false, needFall := false }
    if e.st = .opened || (e.st = .opening && !e.waiting) then enterAgentDown g m l else m

def execAgentRdyFall (l : Nat) (s : State) := s.runIf (s.gen.hasNi l) (agentRdyFall l)

/-- NI_OPEN_WAIT_END (R269): FLOW_IDLE_TIME after the reset. -/
def niOpenWaitEnd (l : Nat) (g : Gen) (m : Mach) : Mach :=
  m.onExpiry (.niOpen l) fun m =>
    if (m.ni l).ep.waiting then tryOpen g (m.updEp l fun e => { e with waiting := false }) l else m

def execNiOpenWaitEnd (l : Nat) (s : State) := s.runIf (s.gen.hasNi l) (niOpenWaitEnd l)

/-! ### Ingress -/

/-- An agent tag that has not had its completion presented (R247, R252): of a request in an ingress buffer, held, tagged
or completed and waiting in an ejection FIFO. -/
def agentTagBusy (m : Mach) (l : Nat) (tag : BitVec 12) : Bool :=
  let n := m.ni l
  (n.ep.ingress.any fun (_, q) => q.any fun p => p.hdr.np && p.hdr.tag == tag) ||
  (n.tab.tags.any fun (_, e) => e.org == .agent && e.agentTag == tag && !e.orphan && !e.fired) ||
  (n.ep.eject.any fun (_, q) => q.any fun e => e.req.isSome && e.pkt.hdr.tag == tag)

/-- Even parity of hy_ep_i_vld, hy_ep_i_ch and hy_ep_i_fidx (R238). -/
def ctlParity (f : BusFlit) : Bool := parity (1 + f.ch.toNat * 2 + f.fidx.toNat * 16) == 1

/-- What the NI reads on the ingress bus (R238, R240): the last flit is the header; the data flits come before it, in ascending
FIDX on the same channel. A presentation of no flit reads as none. -/
def Ingress.ofBus (bus : List BusFlit) : Option Ingress :=
  match bus.reverse with
  | [] => none
  | f :: before =>
    let data := before.reverse
    some
      { ch := f.ch.toNat, hdr := Hdr.ofBits f.data, data := data.map (·.data)
        dataParity := data.any fun d => parity8 d.data != d.par
        otherParity := parity8 f.data != f.par || bus.any fun d => ctlParity d != d.cpar
        badOrder := f.fidx != 0 || data.map (·.fidx) != (List.range data.length).map (fun i => BitVec.ofNat 3 (i + 1)) ||
          data.any fun d => d.ch != f.ch }

/-- What step 1 of R247 finds. -/
inductive Check where
  | pass
  | violation (kind : Nat)
  | refused
deriving DecidableEq, Repr

/-- Step 1 (R247, R285, R287): the first test that fails. -/
def step1 (g : Gen) (m : Mach) (l : Nat) (q : Ingress) : Check :=
  let h := q.hdr
  match (packetFault (g.kind l == 2) h).orElse fun _ => ingressFault q with
  | some k => .violation k
  | none =>
    if h.np && agentTagBusy m l h.tag then .violation 0x0B
    else if g.isInit l && (m.vp l h.vport.toNat).st ≠ .running then .refused
    else if h.np && g.isInit l && tagBudget g m l h.vport.toNat = 0 then .violation 0x0C
    else .pass

/-- The answer and the count of a local violation (R53, R449): a completion but for a duplicate tag. -/
def violate (g : Gen) (m : Mach) (l kind : Nat) (h : Hdr) : Mach :=
  localViolation g (if kind = 0x0B then m else refuseOwn g m l .agent h stProtocol m.ft) l kind

/-- A response of the agent to a memory-port request (R327, R329, R258); `fault` is a LEN or data flit count that the checks
found wrong. -/
def memAnswer (g : Gen) (m : Mach) (l : Nat) (p : Pkt) (fault : Option Nat) : Mach :=
  match memRef g m l p.hdr.tag.toNat with
  | none => localViolation g m l (fault.getD 0x0E)
  | some (r, rd) =>
    if fault.isSome then localViolation g (memDone g m r stProtocol []) l (fault.getD 0)
    else if responseFits { Hdr.zero with cmd := if rd then 0 else 0x20, len := 64 } p.hdr p.data.length then
      memDone g m r p.hdr.status p.bytes
    else localViolation g (memDone g m r stProtocol []) l 0x0F

/-- A response on ingress (R258): one whose CMD, LEN or data flit count does not fit the request is replaced by an RSP with
PROTOCOL; one of class 0 waits in its buffer while its flow's queue of 16 is full (R176). The agent supplies no VN and no CLASS, so the checks take VN P and the class of the
matched entry, or of the channel (log 27). -/
def ingressResponse (g : Gen) (m : Mach) (l : Nat) (q : Ingress) : Mach :=
  let mem := fidLocal q.hdr.dest == 0x7F && fidNode q.hdr.dest == m.node g
  let hit := if mem then none else (m.ni l).tab.pending.find? fun r => r.src == q.hdr.dest && r.tag == q.hdr.tag
  let cls : BitVec 2 := match hit with
    | some r => r.cls
    | none => if q.ch = 7 && !mem then 0 else 1
  let n := 1 + q.data.length
  let h := { q.hdr with vn := 2, cls := cls }
  let back (m : Mach) : Mach := returnIngress m l q.ch n
  let fault := (packetFault false h).orElse fun _ => ingressFault { q with hdr := h }
  let unfit := fault.filter fun k => k == 0x05 || k == 0x0A
  if fault.isSome && unfit.isNone then localViolation g (back m) l (fault.getD 0)
  else if mem then memAnswer g (back m) l ⟨h, q.data, false, []⟩ unfit
  else match hit with
    | none => localViolation g (back m) l (unfit.getD 0x0E)
    | some r =>
      let m := m.updTab l fun t => { t with pending := t.pending.erase r, answered := if r.cls = 0 then t.answered else t.answered ++ [r] }
      if unfit.isSome || !responseFits r h q.data.length then
        localViolation g (sendResponse (back m) l (rspPkt r (m.fid g l) stProtocol)) l (unfit.getD 0x0F)
      else
        let p : Pkt := ⟨{ h with src := m.fid g l, vport := r.vport, addr := r.addr, mcast := false }, q.data, false, []⟩
        let wait (m : Mach) : Mach := m.updEp l fun e => { e with ingress := e.ingress.put q.ch (e.ingress.getD q.ch [] ++ [p]) }
        if cls ≠ 0 then wait m
        else match c0Src m l p.hdr.dest 2 with
          | some (j, w) =>
            if 16 ≤ ((m.ni l).tx.c0rsp.getD j []).length || !((m.ni l).ep.ingress.getD 7 []).isEmpty then wait m
            else c0Respond g (back m) l j w p
          | none => back m

/-- The packet of an ingress presentation with DPOISON set where its data failed parity (R245). -/
def Ingress.poisoned (q : Ingress) : Ingress := if q.dataParity then { q with hdr := q.hdr.setCsf 246 246 1 } else q

/-- Writes whose data carries DPOISON (R49). -/
def dpoisonCmd (c : Nat) : Bool := between 0x20 0x23 c || c == 0x26

/-- A packet that holds its credits and passed the bus checks. -/
def ingressAccepted (g : Gen) (m : Mach) (l : Nat) (q : Ingress) : Mach :=
  let n := 1 + q.data.length
  if isResponse q.hdr.c then ingressResponse g m l q
  else match step1 g m l q with
  | .violation k => violate g (returnIngress m l q.ch n) l k q.hdr
  | .refused =>
    let st := if (m.vp l q.hdr.vport.toNat).st = .resetting then stSquashed else stProtocol
    let m := ((returnIngress m l q.ch n).addWrap g (niKey l 0x34) 1).cntN g l 0x39
    refuseOwn g m l .agent q.hdr st m.ft
  | .pass =>
    let p : Pkt := ⟨q.hdr, q.data, false, []⟩
    if q.hdr.k = 0 then c0Accept g (returnIngress m l q.ch n) l p
    else m.updEp l fun e => { e with ingress := e.ingress.put q.ch (e.ingress.getD q.ch [] ++ [p]) }

/-- A packet as the NI reads it on the ingress bus (R240, R245, R247, R268, R449). The Shuttle is the agent of NI 0 and presents its
packets itself. -/
def ingressRead (l : Nat) (q : Ingress) (g : Gen) (m : Mach) : Mach :=
  let e := (m.ni l).ep
  let n := 1 + q.data.length
  if l = 0 || e.st = .closed || e.st = .agentDown then m
  else if q.otherParity || (q.dataParity && !dpoisonCmd q.hdr.c) then
    (enterAgentDown g (logEv g m (logN l) 0x10 0 0 q.ch) l).updEp l fun e => { e with needFall := true }
  else
    let m := if q.dataParity then m.cntN g l 0x23 else m
    let q := Ingress.poisoned q
    if e.inCr.getD q.ch 0 < n then violate g m l 0x10 q.hdr
    else ingressAccepted g (m.updEp l fun e => { e with inCr := e.inCr.put q.ch (e.inCr.getD q.ch 0 - n) }) l q

/-- INGRESS_PACKET (R238, R240): the flits an agent presents in consecutive fc. -/
def ingressPacket (l : Nat) (bus : List BusFlit) (g : Gen) (m : Mach) : Mach :=
  match Ingress.ofBus bus with
  | some q => ingressRead l q g m
  | none => m

def execIngressPacket (l : Nat) (bus : List BusFlit) (s : State) := s.runIf (s.gen.hasNi l) (ingressPacket l bus)

/-! ### Egress -/

/-- EGRESS_CREDIT (R243, R449): credits beyond 32 outstanding are ignored, each a violation. -/
def egressCredit (l ch n : Nat) (g : Gen) (m : Mach) : Mach :=
  let have_ := (m.ni l).ep.egCr.getD ch 0
  if (m.ni l).ep.st ≠ .opened then m
  else
    let m := mWatch g (m.updEp l fun e => { e with egCr := e.egCr.put ch (min 32 (have_ + n)) }) l
    (List.range (have_ + n - 32)).foldl (fun m _ => if (m.ni l).ep.st = .opened then localViolation g m l 0x11 else m) m

def execEgressCredit (l ch n : Nat) (s : State) := s.runIf (s.gen.hasNi l && ch < 6) (egressCredit l ch n)

/-- The engine whose atomic path takes a command (R330). -/
def pathOf (g : Gen) (m : Mach) (l : Nat) (h : Hdr) : Option Nat :=
  if !isAtomic h.c || g.engines l = 0 || g.kind l < 2 then none
  else (g.engAt l (h.a / 64 % 4 % g.engines l)).filter fun i => m.cfg g (engKey i 0x0E) != 0

/-- Hand an atomic over to its path, or refuse it (R331); nothing when the path is full. -/
def takeAtomic (g : Gen) (m : Mach) (l i : Nat) (p : Pkt) : Option Mach :=
  if atomRefused p then some (answer g (remoteViolation g m l) l p.hdr stProtocol) else atomArrive g m i (atomOp p)

/-- Atomics at the head of the ejection FIFO of VN Q go to their paths, while these have entries (R334). -/
def drainAtomics (g : Gen) (l : Nat) : Nat → Mach → Mach
  | 0, m => m
  | fuel + 1, m =>
    match (m.ni l).ep.eject.getD 0 [] with
    | x :: rest =>
      if x.drop || x.req.isSome then m
      else match pathOf g m l x.pkt.hdr with
        | none => m
        | some i =>
          match takeAtomic g m l i x.pkt with
          | none => m
          | some m => drainAtomics g l fuel (ejectCredits (m.updEp l fun e => { e with eject := e.eject.put 0 rest }) l x.pkt x.cred)
    | [] => m

/-- The head of a VN at egress, and whether it is a memory-port request. -/
def egressHead (m : Mach) (l vn : Nat) : Option (EjPkt × Bool) :=
  let e := (m.ni l).ep
  match vn, e.mem with
  | 0, p :: _ => some (⟨p, false, none, false⟩, true)
  | _, _ => ((e.eject.getD vn []).head?).map fun x => (x, false)

/-- Egress fc `sc` is reserved for class 0: the ejection link carries a reservation two slots earlier (R256). -/
def egressReserved (g : Gen) (m : Mach) (l sc : Nat) : Bool := 2 ≤ sc && m.reserved (g.niRouter l) (g.niPort l) (sc - 2)

/-- Egress credits a packet needs (R243); class 0 needs none. -/
def egressCost (x : EjPkt) : Nat := if x.pkt.hdr.k = 0 then 0 else x.pkt.flits

/-- Entries of the pending table in use: of requests not answered, and of those whose response has not reached step 7 (R258). -/
def pendingUsed (n : Ni) : Nat := n.tab.pending.length + n.tab.answered.length

/-- A head may start (R243, R256, R257, R335). -/
def egressReady (g : Gen) (m : Mach) (l vn : Nat) : Bool :=
  match egressHead m l vn with
  | none => false
  | some (x, mem) =>
    let n := x.pkt.flits
    egressCost x ≤ (m.ni l).ep.egCr.getD vn 0 &&
    (List.range n).all (fun j => !egressReserved g m l (m.time.sc + j)) &&
    (mem || x.drop || (!(x.pkt.hdr.np && 512 ≤ pendingUsed (m.ni l)) && !touchesLock g m l x.pkt.hdr &&
      (pathOf g m l x.pkt.hdr).isNone))

/-- Order of R256: VN P, then Q, F, W and M in rotation after the one served last. -/
def egressOrder (last : Nat) : List Nat :=
  let ring := [0, 1, 3, 4]
  let k := ((ring.findIdx? (· == last)).map (· + 1)).getD 0
  2 :: (ring.drop k ++ ring.take k)

/-- EGRESS_PACKET_START (R256, R257): in the first fc in which the egress bus is free (log 5). -/
def egressPacketStart (l : Nat) (g : Gen) (m0 : Mach) : Mach :=
  if (m0.ni l).ep.st ≠ .opened || !m0.awake (g.niDom l) then m0
  else
    let m1 := drainAtomics g l 8 m0
    let m := m1.advanceTo (m1.ni l).ep.busy
    match (egressOrder (m.ni l).ep.lastVn).find? fun v => egressReady g m l v with
    | none => m1
    | some v =>
      match egressHead m l v with
      | none => m
      | some (x, mem) =>
        let n := egressCost x
        let m := m.updEp l fun e =>
          { e with
            mem := if mem then e.mem.drop 1 else e.mem
            eject := if mem then e.eject else e.eject.put v ((e.eject.getD v []).drop 1)
            egCr := e.egCr.put v (e.egCr.getD v 0 - n)
            busy := m.now + fcUnits x.pkt.flits
            lastVn := if v = 2 then e.lastVn else v }
        let m := m.updN l fun n => { n with used := m.now }
        let m := if v = 4 then mWatch g (m.stopTimer (.mEject l)) l else m
        let m := if x.pkt.hdr.np && !mem && !x.drop then m.updTab l fun t => { t with pending := t.pending ++ [x.pkt.hdr] } else m
        ejectCredits (presentNow g m l x) l x.pkt x.cred

def execEgressPacketStart (l : Nat) (s : State) := s.runIf (s.gen.hasNi l) (egressPacketStart l)

/-- M_EJECT_TIMEOUT (R73): a VN M head that has waited for credit to the end of its interval is discarded; it counts as
delivered. The next head's wait begins. -/
def mEjectTimeout (l : Nat) (g : Gen) (m : Mach) : Mach :=
  m.onExpiry (.mEject l) fun m =>
    match (m.ni l).ep.eject.getD 4 [] with
    | x :: rest =>
      let m := ejectCredits (m.updEp l fun e => { e with eject := e.eject.put 4 rest }) l x.pkt x.cred
      mWatch g (if x.drop || l = 0 then m else m.addWrap g (niKey l 0x17) 1) l
    | [] => m

def execMEjectTimeout (l : Nat) (s : State) := s.runIf (s.gen.hasNi l) (mEjectTimeout l)

end Sys2Proof.Machine
end

