-- ==== Sys2Proof/Machine/VirtualPort.lean ====
section
/-! DEFINITION. Virtual ports: VP_CTRL (R281, R283, R284), VP_STATUS (R282), the commands of VP_OP (R288-R294) and the squash
round. -/

namespace Sys2Proof.Machine

open Sys2Proof

/-! ### What a virtual port holds -/

/-- RETX of a virtual port (R282). -/
def vpRetx (n : Ni) (v : Nat) : Nat :=
  (n.tab.retx.filter fun x => x.org == .agent && !isResponse x.pkt.hdr.c && x.pkt.hdr.vport.toNat == v).length

/-- HELD of a virtual port (R282). -/
def vpHeld (n : Ni) (v : Nat) : Nat :=
  ((n.tx.held.filter fun x => x.org == .agent && x.req.vport.toNat == v).map fun x => x.parts.length).sum

/-- A request of the virtual port in an ingress buffer. -/
def ofVport (v : Nat) (p : Pkt) : Bool := !isResponse p.hdr.c && p.hdr.vport.toNat == v

def vpMirrored (n : Ni) (v : Nat) : Bool := n.tx.mirror.any fun p => p.hdr.vport.toNat == v

/-- The conditions of R289. -/
def vpDrained (n : Ni) (v : Nat) : Bool :=
  !(n.ep.ingress.any fun (_, q) => q.any (ofVport v)) && vpHeld n v == 0 && vpTags n v == 0 && vpRetx n v == 0 && !vpMirrored n v

def VpState.code : VpState → Nat
  | .disabled => 0
  | .running => 1
  | .freezing => 2
  | .frozen => 3
  | .resetting => 4

/-- VP_STATUS (R282). -/
def vpStatus (m : Mach) (l v : Nat) : Nat :=
  let n := m.ni l
  (m.vp l v).st.code * 2 ^ 29 + vpTags n v % 2 ^ 13 * 2 ^ 16 + vpHeld n v % 64 * 2 ^ 10 + vpRetx n v % 512 * 2 + (n.job.any fun j => j.op == 5 && j.v == v && !j.nodes.isEmpty).toNat

def setVpState (m : Mach) (l v : Nat) (st : VpState) : Mach := m.updVp l v fun x => { x with st := st }

/-! ### VP_CTRL -/

/-- A write of VP_CTRL of virtual port v (R281, R283, R284, R296), the object being present. -/
def vpCtrlWrite (g : Gen) (m : Mach) (l v w : Nat) : Mach × Nat :=
  let k := vpKey 0x4800 l v
  let old := m.reg g k
  let st := (m.vp l v).st
  if fld w 30 29 = 3 || 4096 < fld w 28 16 || fld w 15 8 = 0 then (m, mgRange)
  else if bit w 31 != bit old 31 && !(if bit w 31 then st == .disabled else st == .frozen) then (m, mgStopRequired)
  else if fld w 30 29 ≠ fld old 30 29 && st ≠ .disabled && st ≠ .frozen then (m, mgStopRequired)
  else
    let m := if fld w 15 8 = fld old 15 8 then m else m.updVp l v fun x =>
      { x with oldWeight := if x.oldWeight = 0 then fld old 15 8 else x.oldWeight }
    let m := if bit w 31 = bit old 31 then m else setVpState m l v (if bit w 31 then .running else .disabled)
    (m.write k w, mgOk)

/-- VP_ENABLE (R283): VP_CTRL written with ENABLE = 1, its other fields as they are. -/
def vpEnable (l v : Nat) (g : Gen) (m : Mach) : Mach × Nat :=
  vpCtrlWrite g m l v (setBit (m.reg g (vpKey 0x4800 l v)) 31 true)

def execVpEnable (l v : Nat) (s : State) := s.runWrite (s.gen.isInit l && v < 1024) (vpEnable l v)

/-- VP_DISABLE (R283): VP_CTRL written with ENABLE = 0, its other fields as they are. -/
def vpDisable (l v : Nat) (g : Gen) (m : Mach) : Mach × Nat :=
  vpCtrlWrite g m l v (setBit (m.reg g (vpKey 0x4800 l v)) 31 false)

def execVpDisable (l v : Nat) (s : State) := s.runWrite (s.gen.isInit l && v < 1024) (vpDisable l v)

/-! ### VP_OP -/

/-- VP_OP_RESULT. -/
def vpResult (m : Mach) (l : Nat) (busy : Bool) (op code v : Nat) : Mach :=
  m.setReg (niKey l 0x32) (busy.toNat * 2 ^ 31 + op * 2 ^ 24 + code * 2 ^ 16 + v)

def vpImageKey (l : Nat) : Nat := niKey l 0x33

/-- The image of a virtual port (R291), as a number of 2,048 bits. -/
def vpImage (g : Gen) (m : Mach) (l v : Nat) : Nat :=
  let x := m.vp l v
  let lvl := (x.bucket.refill (vpShape g m l v) m.ft).level / 65536
  let w := 0x00030200 + (m.fid g l).toNat * 2 ^ 32 + v * 2 ^ 48 + m.reg g (vpKey 0x4800 l v) * 2 ^ 64 + vpShape g m l v * 2 ^ 96 +
    lvl % 2 ^ 64 * 2 ^ 128 + x.deficit % 2 ^ 32 * 2 ^ 192 + m.ns % 2 ^ 64 * 2 ^ 1920
  w + crc32c (toBytes w 252) * 2 ^ 2016

/-- RESTORE loads an image (R291): the code it reports. ENABLE reads 1 in FROZEN. DEDUCED (log 28). -/
def vpLoad (g : Gen) (m : Mach) (l v : Nat) : Mach × Nat :=
  let w := m.reg g (vpImageKey l)
  if crc32c (toBytes w 252) ≠ fld w 2047 2016 then (m, 3)
  else if fld w 31 8 ≠ 0x000302 then (m, 4)
  else
    let shape := fld w 127 96
    let cap := shape / 65536 * 64000
    let now := m.ft
    let m := (m.hwReg g (vpKey 0x4800 l v) (2 ^ 32 - 1) (setBit (fld w 95 64 / 256 * 256) 31 true)).hwReg g (vpKey 0x4C00 l v) (2 ^ 32 - 1) shape
    (m.updVp l v fun x => { x with st := .frozen, bucket := ⟨min (fld w 191 128) cap * 65536, now, 0, 0⟩, deficit := fld w 223 192 }, 0)

/-- One completion with SQUASHED for an outstanding request; its tags are orphaned. -/
def squashTag (g : Gen) (m : Mach) (l tag : Nat) : Mach :=
  match (m.ni l).tab.tags.get? tag with
  | none => m
  | some e =>
    let done := e.orphan || e.fired
    let m := m.updTab l fun t => { t with tags := t.tags.upd tag fun e => { e with orphan := true } }
    if e.part = 0 then
      if done then m
      else completeTo g m l e.org false (ownRsp g m l e.req stSquashed) ⟨e.req, e.issue, false, e.sampled⟩ false
    else match (m.ni l).tab.splits.get? e.low with
      | none => m
      | some r =>
        let m := m.updTab l fun t => { t with splits := t.splits.del e.low }
        if e.orphan then m else completeTo g m l e.org false (ownRsp g m l r.req.hdr stSquashed) r.req false

/-- A packet discarded by a reset (R292). -/
def squashPkts (g : Gen) (m : Mach) (l n : Nat) (h : Hdr) : Mach :=
  if h.np then refuseOwn g m l .agent h stSquashed m.ft else m.addWrap g (niKey l 0x35) n

/-- Ingress buffers, held store, thread queues, tags and mirror copies of a virtual port (R292). -/
def vpSquash (g : Gen) (m : Mach) (l v : Nat) : Mach :=
  let m := (List.range 8).foldl (fun m ch =>
    let q := (m.ni l).ep.ingress.getD ch []
    let mine := q.filter (ofVport v)
    if mine.isEmpty then m
    else
      let m := if (q.head?.map (ofVport v)).getD false then dropKept m l (.chan ch) else m
      let m := m.updEp l fun e => { e with ingress := e.ingress.put ch (q.filter fun p => !ofVport v p) }
      mine.foldl (fun m p => squashPkts g (returnIngress m l ch p.flits) l 1 p.hdr) m) m
  let held := (m.ni l).tx.held.filter fun x => x.org == .agent && x.req.vport.toNat == v
  let m := m.updTx l fun t => { t with held := t.held.filter fun x => !(x.org == .agent && x.req.vport.toNat == v) }
  let m := held.foldl (fun m x => squashPkts g (dropTags m l x.tags) l x.parts.length x.req) m
  let m := (List.range 32).foldl (fun m j =>
    let q := (m.ni l).tx.c0q
    match (q.get? (2 * j)).orElse fun _ => q.get? (2 * j + 1) with
    | none => m
    | some p =>
      if !ofVport v p then m
      else
        let single := (c0Descs m 0x3400 l).any fun (i, w) => i == j && rsvB w == 0
        let whole := q.has (2 * j) && (single || q.has (2 * j + 1))
        let m := m.updTx l fun t => { t with c0q := (t.c0q.del (2 * j)).del (2 * j + 1) }
        if !whole then m
        else if p.hdr.np then freeTag (squashTag g m l p.hdr.tag.toNat) l p.hdr.tag.toNat
        else m.addWrap g (niKey l 0x35) 1) m
  let tags := ((m.ni l).tab.tags.filter fun (_, e) => e.org == .agent && e.hdr.vport.toNat == v).map (·.1)
  let m := tags.foldl (fun m t => squashTag g m l t) m
  let copies := ((m.ni l).tx.mirror.filter fun p => p.hdr.vport.toNat == v).length
  (m.updTx l fun t => { t with mirror := t.mirror.filter fun p => p.hdr.vport.toNat != v }).cntN g l 0x20 copies

/-- Squash every context of the instance whose owner is (fid, v) (R293): it ends as R347 gives, but records no fault and
sends no completion. The answer is the number squashed. -/
def squashContexts (g : Gen) (m : Mach) (fid v : Nat) : Mach × Nat :=
  (List.range g.engineCount).foldl (fun acc i =>
    (List.range 8).foldl (fun (m, n) c =>
      match m.ctx? i c with
      | some x =>
        if x.ownerSrc.toNat = fid && x.ownerVport.toNat = v && x.st ≠ .ending then
          (killCtx g (m.updCtx i c fun x => { x with inv := none }) i c, n + 1)
        else (m, n)
      | none => (m, n)) acc) (m, 0)

/-- Nodes other than the instance's own whose NODE_ROUTE entry is VALID. -/
def otherNodes (g : Gen) (m : Mach) : List Nat :=
  (List.range 512).filter fun n => n ≠ m.node g && bit (m.nodeRoute g n) 15

/-- The request MG_VP_SQUASH for a node (R465). -/
def squashReq (g : Gen) (m : Mach) (tag l v n : Nat) : Pkt :=
  let h := { Hdr.zero with dest := mkFid n 0, src := m.fid g 0, vn := 5, cls := 1, cmd := 0xA3, tag := BitVec.ofNat 12 tag }
  ⟨(h.setCsf 239 224 (m.fid g l).toNat).setCsf 223 214 v, [], false, []⟩

/-- Send a request of the Shuttle and remember what its answer is for; nothing when it cannot be sent. -/
def shuttleCall (m : Mach) (c : Call) (p : Nat → Pkt) : Option Mach :=
  (m.sh.calls.lowestFree 0 4096).bind fun id =>
    (shuttleSend m (p id)).map fun m => m.updSh fun s => { s with calls := s.calls.put id c }

/-- RESET takes effect (R292, R293): the squash round to the own node ends at once. -/
def vpReset (g : Gen) (m : Mach) (l v : Nat) : Mach :=
  let m := vpSquash g m l v
  let m := m.updVp l v fun x => { x with st := .resetting }
  let m := (squashContexts g m (m.fid g l).toNat v).1
  let (m, nodes, un) := (otherNodes g m).foldl (fun (m, ns, un) n =>
    match shuttleCall m (.squash l n) (fun id => squashReq g m id l v n) with
    | some m => (m, ns ++ [n], un)
    | none => (m, ns, true)) (m, [], false)
  (m.updN l fun x => { x with job := some ⟨5, v, nodes, un⟩ }).startTimer (.squash l) (m.ticksOn 2)

/-- A VP_OP command (R283, R288, R291, R296). -/
def vpOp (g : Gen) (m : Mach) (l op v : Nat) : Mach × Nat :=
  if !g.isInit l then (m, mgAbsent)
  else if op = 0 || 5 < op then (m, mgRange)
  else if (m.ni l).job.isSome then (m, mgBusy)
  else
    let st := (m.vp l v).st
    let wrong := (vpResult m l false op 1 v, mgOk)
    if op = 1 then
      if st ≠ .running then wrong
      else (((vpResult (setVpState m l v .freezing) l true op 0 v).updN l fun n => { n with job := some ⟨1, v, [], false⟩ }).startTimer
        (.vpFreeze l) (2 * npTimeout g m l), mgOk)
    else if op = 2 then
      if st ≠ .freezing && st ≠ .frozen then wrong else (vpResult (setVpState m l v .running) l false op 0 v, mgOk)
    else if op = 3 then
      if st ≠ .frozen then wrong else (vpResult (m.hwReg g (vpImageKey l) (2 ^ 2048 - 1) (vpImage g m l v)) l false op 0 v, mgOk)
    else if op = 4 then
      if st ≠ .disabled then wrong
      else
        let (m, code) := vpLoad g m l v
        (vpResult m l false op code v, mgOk)
    else if st ≠ .running && st ≠ .freezing && st ≠ .frozen then wrong
    else (vpResult (vpReset g m l v) l true op 0 v, mgOk)

/-- FREEZE (R283, R288). -/
def freeze (l v : Nat) (g : Gen) (m : Mach) : Mach × Nat := vpOp g m l 1 v
def execFreeze (l v : Nat) (s : State) := s.runWrite (s.gen.isInit l && v < 1024) (freeze l v)

/-- THAW (R283). -/
def thaw (l v : Nat) (g : Gen) (m : Mach) : Mach × Nat := vpOp g m l 2 v
def execThaw (l v : Nat) (s : State) := s.runWrite (s.gen.isInit l && v < 1024) (thaw l v)

/-- SAVE (R291). -/
def save (l v : Nat) (g : Gen) (m : Mach) : Mach × Nat := vpOp g m l 3 v
def execSave (l v : Nat) (s : State) := s.runWrite (s.gen.isInit l && v < 1024) (save l v)

/-- RESTORE (R291). -/
def restore (l v : Nat) (g : Gen) (m : Mach) : Mach × Nat := vpOp g m l 4 v
def execRestore (l v : Nat) (s : State) := s.runWrite (s.gen.isInit l && v < 1024) (restore l v)

/-- RESET (R292, R293). -/
def reset (l v : Nat) (g : Gen) (m : Mach) : Mach × Nat := vpOp g m l 5 v
def execReset (l v : Nat) (s : State) := s.runWrite (s.gen.isInit l && v < 1024) (reset l v)

/-- End the command in progress with a code. -/
def vpEndJob (m : Mach) (l : Nat) (j : VpJob) (code : Nat) : Mach :=
  (((vpResult m l false j.op code j.v).updN l fun n => { n with job := none }).stopTimer (.vpFreeze l)).stopTimer (.squash l)

/-- VP_FROZEN (R289): every FREEZING virtual port that is drained is FROZEN; the FREEZE in progress ends with DONE. -/
def vpFrozen (l : Nat) (_g : Gen) (m : Mach) : Mach :=
  let done := ((m.ni l).vps.filter fun (v, x) => x.st == .freezing && vpDrained (m.ni l) v).map (·.1)
  done.foldl (fun m v =>
    let m := setVpState m l v .frozen
    match (m.ni l).job with
    | some j => if j.op = 1 && j.v = v then vpEndJob m l j 0 else m
    | none => m) m

def execVpFrozen (l : Nat) (s : State) := s.runIf (s.gen.hasNi l) (vpFrozen l)

/-- VP_FREEZE_TIMEOUT (R289): after 2 × NP_TIMEOUT the FREEZE in progress ends with DRAIN_TIMEOUT and its port stays FREEZING. -/
def vpFreezeTimeout (l : Nat) (_g : Gen) (m : Mach) : Mach :=
  match (m.ni l).job with
  | some j =>
    if j.op = 1 && !vpDrained (m.ni l) j.v then m.onExpiry (.vpFreeze l) fun m => vpEndJob m l j 2 else m
  | none => m

def execVpFreezeTimeout (l : Nat) (s : State) := s.runIf (s.gen.hasNi l) (vpFreezeTimeout l)

/-- SQUASH_ROUND_TIMEOUT (R293): nodes that have not answered after two control ticks are unreached. -/
def squashRoundTimeout (l : Nat) (_g : Gen) (m : Mach) : Mach :=
  match (m.ni l).job with
  | some j =>
    if j.op ≠ 5 || j.nodes.isEmpty then m
    else m.onExpiry (.squash l) fun m =>
      let m := m.updSh fun s => { s with calls := s.calls.filter fun (_, c) => match c with
        | .squash l' _ => l' != l
        | _ => true }
      m.updN l fun n => { n with job := some { j with nodes := [], unreached := true } }
  | none => m

def execSquashRoundTimeout (l : Nat) (s : State) := s.runIf (s.gen.hasNi l) (squashRoundTimeout l)

/-- VP_RESET_DONE (R294). -/
def vpResetDone (l : Nat) (g : Gen) (m : Mach) : Mach :=
  match (m.ni l).job with
  | some j =>
    let n := m.ni l
    if j.op ≠ 5 || !j.nodes.isEmpty || vpTags n j.v ≠ 0 || vpRetx n j.v ≠ 0 || vpMirrored n j.v then m
    else
      let k := vpKey 0x4800 l j.v
      let now := m.ft
      let b := Bucket.full (vpShape g m l j.v) now
      let m := m.hwReg g k (2 ^ 31) 0
      let m := m.updVp l j.v fun x => { x with st := .disabled, bucket := b, deficit := 0 }
      vpEndJob m l j (if j.unreached then 5 else 0)
  | none => m

def execVpResetDone (l : Nat) (s : State) := s.runIf (s.gen.hasNi l) (vpResetDone l)

end Sys2Proof.Machine
end

