-- ==== Sys2Proof/Machine/Group.lean ====
section
/-! DEFINITION. Multicast groups: the tree check of R131, GROUP_CTRL (R129, R130) and its rows. -/

namespace Sys2Proof.Machine

open Sys2Proof

/-- GROUP_ENTRY as last accepted: the write of ENABLE = 1 puts it into force (R521). -/
def entryOf (g : Gen) (m : Mach) (n r : Nat) : Nat := m.reg g (key (0x2400 + n) r)

/-- One router of the walk may stand in the tree: it was reached on port `inp` (none at the root) from a root of Ndesil
port `a`, if any. DESIGN CHOICE (log 163): a root has no arrival port, so its PORTS may name the L or Z port a packet enters by. -/
def treeRouterOk (g : Gen) (m : Mach) (n : Nat) (a : Option Nat) (r : Nat) (inp : Option Nat) : Bool :=
  let ps := groupPorts (entryOf g m n r)
  ps.all (fun p => g.hasRouterPort r p) &&
  (match inp with
   | some i => !ps.isEmpty && !ps.contains i && (1 < i || !(ps.contains 2 || ps.contains 3))
   | none => true) &&
  (match a, ps.contains 6, g.zAt r with
   | some a, true, some (b, _) => b != a && (m.portDir g a != 1 || m.portDir g b == 2)
   | _, _, _ => true)

/-- Walk the tree from the routers still to visit; every router is reached at most once. -/
def treeWalk (g : Gen) (m : Mach) (n : Nat) (a : Option Nat) : Nat → List (Nat × Option Nat) → List Nat → Bool
  | _, [], _ => true
  | 0, _ :: _, _ => false
  | fuel + 1, (r, inp) :: rest, seen =>
    !seen.contains r && treeRouterOk g m n a r inp &&
      treeWalk g m n a fuel
        (((groupPorts (entryOf g m n r)).filter (· ≤ 3)).map (fun p => (g.neighbour r p, some (facing p))) ++ rest) (r :: seen)

/-- R131, from every router with ROOT = 1. DEDUCED (log 29): each root's tree is followed by itself. -/
def treeOk (g : Gen) (m : Mach) (n : Nat) : Bool :=
  g.routers.all fun r => !bit (entryOf g m n r) 7 || treeWalk g m n ((g.zAt r).map (·.1)) 1025 [(r, none)] []

/-- GROUP_CTRL of group n takes a new ENABLE: hardware clears DRAINED with it (R130). -/
def setGroup (m : Mach) (n v : Nat) : Mach := (m.setReg (groupKey n) v).noteHw (groupKey n) 2 0

/-- A write of GROUP_CTRL of group n (R129-R131, R521). -/
def groupWrite (g : Gen) (m : Mach) (n : Nat) (enable : Bool) : Mach × Nat :=
  let was := m.groupEnabled g n
  if enable then
    if !treeOk g m n then (m, mgTreeInvalid)
    else
      (((setGroup (m.apply fun k => k / 256 == 0x2400 + n) n 1).updSh fun s => { s with draining := s.draining.erase n }).stopTimer
        (.group n), mgOk)
  else if was then
    (((setGroup m n 0).updSh fun s => { s with draining := s.draining ++ [n] }).startTimer (.group n)
      (m.toTick (32 * nsUnits (m.reg g (key 0x2000 2)))), mgOk)
  else (m, mgOk)

/-- GROUP_ENABLE (R131). -/
def groupEnable (n : Nat) (g : Gen) (m : Mach) : Mach × Nat := groupWrite g m n true
def execGroupEnable (n : Nat) (s : State) := s.runWrite (n < 1024) (groupEnable n)

/-- GROUP_DISABLE (R130). -/
def groupDisable (n : Nat) (g : Gen) (m : Mach) : Mach × Nat := groupWrite g m n false
def execGroupDisable (n : Nat) (s : State) := s.runWrite (n < 1024) (groupDisable n)

/-- GROUP_DRAINED (R130): DRAINED of a group that waits for it, at its control tick. -/
def groupDrained (n : Nat) (g : Gen) (m : Mach) : Mach :=
  m.onExpiry (.group n) fun m =>
    (m.hwReg g (groupKey n) 2 2).updSh fun s => { s with draining := s.draining.erase n }

def execGroupDrained (n : Nat) (s : State) := s.runIf (n < 1024) (groupDrained n)

end Sys2Proof.Machine
end

