-- ==== Sys2Proof/Machine/Time.lean ====
section
/-! DEFINITION. Fabric time: the master's inputs (R148-R152), the time tree (R153, R157), exchanges (R154, R398),
TIME_STATE (R156), conflicts (R158) and the slot count (R160). -/

namespace Sys2Proof.Machine

open Sys2Proof

/-! ### The slot count -/

/-- The pricking is ACTIVE or ACTIVE_ARMED. -/
def prkRunning (m : Mach) : Bool := m.prk.st == .active || m.prk.st == .activeArmed

/-! ### TIME_STATE -/

def TimeState.code : TimeState → Nat
  | .free => 0
  | .acquiring => 1
  | .locked => 2
  | .holdover => 3
  | .fault => 4

/-- Enter FAULT, with one event in the instance log (R156, R158, R199). -/
def enterTimeFault (g : Gen) (m : Mach) (cause : Nat) (fid : BitVec 16) (aux : Nat) : Mach :=
  if m.time.st = .fault then m
  else
    let m := if prkRunning m then m.orReg g (key 0x3100 6) 4 else m
    logEv g (m.updT fun t => { t with st := .fault }) 0x9000 cause 0 fid aux

/-- TIME_FAULT with its reason: 0 HOLDOVER_LIMIT, 1 slot misalignment, 2 CONFLICT received. -/
def timeFault (g : Gen) (m : Mach) (reason : Nat) : Mach :=
  enterTimeFault g m 0x16 0 (m.time.st.code + reason * 256)

/-! ### The time tree (R153) -/

def isMaster (g : Gen) (m : Mach) : Bool := m.reg g (key 0x3000 1) == 1

/-- A live neighbour: its port is UP with a trained channel (R389). -/
def portLive (m : Mach) (p : Nat) : Bool := (m.port p).link == .up && (m.port p).trained != 0

/-- The advertisements of live neighbours. -/
def liveAdvs (g : Gen) (m : Mach) : List (Nat × TimeAdv) :=
  g.ports.filterMap fun q => if portLive m q.p then ((m.port q.p).adv).map fun a => (q.p, a) else none

/-- The advertisements that lead toward the master. -/
def towardMaster (g : Gen) (m : Mach) : List (Nat × TimeAdv) := (liveAdvs g m).filter fun (_, a) => !a.via && a.steps != 0xFF

/-- The lowest STEPS of some advertisements, lowest port on a tie. -/
def lowestSteps (as : List (Nat × TimeAdv)) : Option Nat :=
  (as.foldl (fun (b : Option (Nat × TimeAdv)) (p, a) =>
    match b with
    | none => some (p, a)
    | some (q, x) => if a.steps < x.steps || (a.steps = x.steps && p < q) then some (p, a) else some (q, x)) none).map (·.1)

/-- The upstream of a follower (R153). DESIGN CHOICE (log 169): a port whose neighbour stopped completing exchanges is passed
over while another leads toward the master (R157). -/
def bestUpstream (g : Gen) (m : Mach) : Option Nat :=
  if isMaster g m then none
  else
    let as := towardMaster g m
    (lowestSteps (as.filter fun (p, _) => !m.time.deaf.contains p)).orElse fun _ => lowestSteps as

/-- What the instance advertises on port p (R153). -/
def advOf (g : Gen) (m : Mach) (p : Nat) : TimeAdv :=
  let c := m.time.conflict
  if isMaster g m then ⟨true, c, false, BitVec.ofNat 16 (m.node g), 0⟩
  else match m.time.upstream.bind fun u => (m.port u).adv.map fun a => (u, a) with
    | some (u, a) => ⟨false, c, p == u, a.master, BitVec.ofNat 8 (min 254 (a.steps.toNat + 1))⟩
    | none => ⟨false, c, false, 0xFFFF, 0xFF⟩

/-- Send TIME_ADV to every neighbour that can be reached on the sideband. -/
def advertise (g : Gen) (m : Mach) : Mach :=
  (g.ports.filter fun q => (m.port q.p).link == .up).foldl (fun m q => m.sideband g q.p 0x07 (TimeAdv.bytes (advOf g m q.p))) m

/-- Choose the upstream again, and advertise the position when it has changed (R153, R156). -/
def reposition (g : Gen) (m : Mach) (before : List TimeAdv) : Mach :=
  let u := bestUpstream g m
  let m := m.updT fun t => { t with upstream := u, st := if t.st = .free && u.isSome then .acquiring else t.st }
  if (g.ports.map fun q => advOf g m q.p) = before then m else advertise g m

def position (g : Gen) (m : Mach) : List TimeAdv := g.ports.map fun q => advOf g m q.p

/-- MASTER_NODE of an advertisement names a master. -/
def namesMaster (a : TimeAdv) : Bool := a.master.toNat < 0xFFFF

/-- The other master an advertisement shows, if it makes a conflict (R158). -/
def conflictWith (g : Gen) (m : Mach) (x : TimeAdv) : Option (BitVec 16) :=
  if !namesMaster x then none
  else if isMaster g m && x.master.toNat ≠ m.node g then some x.master
  else if (liveAdvs g m).any fun (_, a) => namesMaster a && a.master != x.master then some x.master
  else none

/-- A conflict has been seen or CONFLICT received: it is kept until 3 ms without one (R158). -/
def noteConflict (m : Mach) : Mach := (m.updT fun t => { t with conflict := true }).startTimer .conflict (usUnits 3000)

/-- A neighbour's advertisement (R153, R158). -/
def hearAdv (g : Gen) (m : Mach) (p : Nat) (x : TimeAdv) : Mach :=
  let before := position g m
  let m := m.updP p fun q => { q with adv := some x }
  let m := match conflictWith g m x with
    | some other => enterTimeFault g (noteConflict m) 0x15 other 0
    | none => if x.conflict then timeFault g (noteConflict m) 2 else m
  reposition g m before

/-- TIME_ADV (R153). -/
def timeAdv (p : Nat) (x : TimeAdv) (g : Gen) (m : Mach) : Mach := if portLive m p then hearAdv g m p x else m

def execTimeAdv (r : SbRx) (x : TimeAdv) (s : State) :=
  s.runIf (s.gen.hasPort r.p) (sbTake 0x07 x.bytes r.crc (timeAdv r.p x))

/-- TIME_ADV_SEND (R153). -/
def timeAdvSend (g : Gen) (m : Mach) : Mach := advertise g m

def execTimeAdvSend (s : State) := s.run timeAdvSend

/-- CONFLICT_CLEAR (R158): 3 ms have passed without a conflict seen or received; one still seen keeps it. -/
def conflictClear (g : Gen) (m : Mach) : Mach :=
  if !m.time.conflict || (liveAdvs g m).any fun (_, a) => a.conflict || (conflictWith g m a).isSome then m
  else m.onExpiry .conflict fun m => advertise g (m.updT fun t => { t with conflict := false })

def execConflictClear (s : State) := s.run conflictClear

/-! ### Corrections (R151, R154) -/

/-- Remove an offset, in 1/65,536 ns: by a step when the pricking is IDLE and it exceeds STEP_THRESHOLD, before which every
bucket has the refill of the time up to it (R218); otherwise by a slew over `fc` fc, within the limits of R151. -/
def correct (g : Gen) (m : Mach) (off : Int) (fc : Nat) : Mach :=
  if m.prk.st = .idle && nsUnits (m.reg g (key 0x3000 7)) < off.natAbs then
    (g.nis.foldl (fun m n => refillAll g m n.loc) m).updT fun t =>
      { t with ft := (((t.ft : Int) + off).toNat) % 2 ^ 80, slew := 0, slewLen := 0, slewDone := 0 }
  else m.updT fun t => { t with slew := off, slewLen := fc, slewDone := 0 }

/-- Timestamps have 125 ps resolution (R150, R398). -/
def stamp125 (t : Nat) : Nat := t / 8192 * 8192

/-! ### The master's inputs -/

/-- TOD_LATCH (R149). -/
def todLatch (ns : BitVec 64) (g : Gen) (m : Mach) : Mach :=
  if isMaster g m then m.updT fun t => { t with tod := some ns.toNat } else m

def execTodLatch (ns : BitVec 64) (s : State) := s.run (todLatch ns)

/-- An edge is used (R150). -/
def ppsUsable (t : TimeSt) (stamp : Nat) : Bool :=
  t.tod.isSome && (!t.present || match t.lastPps with
    | none => true
    | some last =>
      let d := ((stamp : Int) - (last : Int) - (usUnits 1000000 : Nat)).natAbs
      d ≤ usUnits 1000)

/-- PPS_EDGE (R150, R151, R152, R156). DESIGN CHOICE (log 170): an edge that is rejected leaves the latched hy_tod pending. -/
def ppsEdge (g : Gen) (m : Mach) : Mach :=
  if !isMaster g m then m
  else
    let stamp := stamp125 m.ft
    match m.time.tod, ppsUsable m.time stamp with
    | some ns, true =>
      let off : Int := ((nsUnits ns : Nat) : Int) - (stamp : Int)
      let before := m.ft
      let m := (correct g m off 2000000000).startTimer .pps (usUnits 2000000)
      let stepped : Int := (m.ft : Int) - (before : Int)
      alignSc (m.updT fun t =>
        { t with tod := none, present := true, lastPps := some ((stamp : Int) + stepped).toNat
                 st := if t.st = .free then .locked else t.st })
    | _, _ => m.addWrap g (key 0x3000 10) 1

def execPpsEdge (s : State) := s.run ppsEdge

/-- PPS_LOSS (R152): 2 s since the last used edge. -/
def ppsLoss (g : Gen) (m : Mach) : Mach :=
  if isMaster g m then m.onExpiry .pps fun m => m.updT fun t => { t with present := false } else m

def execPpsLoss (s : State) := s.run ppsLoss

/-! ### The exchange with the upstream (R154, R398) -/

/-- The lowest trained channel of a port. -/
def lowestChan (m : Mach) (p : Nat) : Option Nat := (m.trainedChans p).head?

/-- TIME_EXCHANGE_START: once every 1 ms; the next frame of the lowest trained channel carries the request mark. -/
def timeExchangeStart (g : Gen) (m : Mach) : Mach :=
  match m.time.upstream with
  | none => m
  | some u =>
    if isMaster g m || !portLive m u then m
    else match lowestChan m u with
      | none => m
      | some c =>
        let m := (m.advanceTo ((m.deadline .tsStart).getD m.now)).startTimer .tsStart (usUnits 1000)
        let m := m.startTimer .tsAnswer (usUnits 200)
        ((linkWake g m u).updC u c fun x => { x with tsMark := 1 }).updT fun t => { t with t1 := some (stamp125 m.ft), t4 := none }

def execTimeExchangeStart (s : State) := s.run timeExchangeStart

/-- The state machine of R156 on a completed exchange. -/
def TimeSt.lockStep (t : TimeSt) (th : Int) : TimeSt :=
  let good := if th.natAbs ≤ 16384 then t.good + 1 else 0
  let bad := if 32768 < th.natAbs then t.bad + 1 else 0
  match t.st with
  | .acquiring => if 8 ≤ good then { t with st := .locked, good := good, bad := 0 } else { t with good := good, bad := bad }
  | .locked => if 4 ≤ bad then { t with st := .acquiring, good := 0, bad := 0 } else { t with good := good, bad := bad }
  | .holdover => { t with st := .acquiring, good := good, bad := bad }
  | _ => { t with good := good, bad := bad }

/-- θ of an exchange in 1/65,536 ns; LINK_ASYM is in ps. -/
def theta (t1 t2 t3 t4 : Nat) (asym : Int) : Int :=
  (((t2 : Int) - t1) - ((t4 : Int) - t3)) / 2 - asym * 65536 / 1000

/-- TS_VALUES (R154): the exchange completes. -/
def tsValues (p t2 t3 : Nat) (g : Gen) (m : Mach) : Mach :=
  match m.time.t1, m.time.t4 with
  | some t1, some t4 =>
    if m.time.upstream ≠ some p then m
    else
      let th := theta t1 t2 t3 t4 (toSigned 32 (m.reg g (key 0x3001 (p + 1))))
      let m := m.setReg (key 0x3000 4) (ofSigned 32 (th * 1000 / 65536))
      let m := (((correct g m th 2000000).stopTimer .tsAnswer).stopTimer .holdover).startTimer .exchange (usUnits 3000)
      let lim := m.reg g (key 0x3000 6)
      alignSc (m.updT fun t => { t.lockStep th with t1 := none, t4 := none, deaf := t.deaf.erase p, holdLimit := lim })
  | _, _ => m

def execTsValues (r : SbRx) (t2 t3 : Nat) (s : State) :=
  s.runIf (s.gen.hasPort r.p) (sbTake 0x04 (tsBytes t2 t3) r.crc (tsValues r.p (t2 % 2 ^ 80) (t3 % 2 ^ 80)))

/-- The neighbour of port u stopped completing exchanges: the upstream is chosen again (R153, R157). -/
def passOver (g : Gen) (m : Mach) (u : Nat) : Mach :=
  let before := position g m
  reposition g (m.updT fun t => { t with deaf := t.deaf.erase u ++ [u] }) before

/-- Another port leads toward the master with the STEPS of port u or the next higher (R157). -/
def nearUpstream (g : Gen) (m : Mach) (u : Nat) : Bool :=
  let own := (((m.port u).adv.map fun a => a.steps.toNat).getD 0xFF)
  (towardMaster g m).any fun (p, a) => p != u && !m.time.deaf.contains p && (a.steps.toNat == own || a.steps.toNat == own + 1)

/-- TS_EXCHANGE_TIMEOUT (R157, R398): 200 µs after t1 the exchange is abandoned. DESIGN CHOICE (log 169): after one such exchange
the follower takes another upstream, which R157 wants within two intervals; its state stays. -/
def tsExchangeTimeout (g : Gen) (m : Mach) : Mach :=
  match m.time.t1, m.time.upstream with
  | some _, some u =>
    m.onExpiry .tsAnswer fun m =>
      let m := m.updT fun t => { t with t1 := none, t4 := none }
      let m := ((lowestChan m u).map fun c => m.updC u c fun x => { x with tsMark := if x.tsMark = 1 then 0 else x.tsMark }).getD m
      let m := m.addWrap g (key (0x7100 + u) 0x12) 1
      if nearUpstream g m u then passOver g m u else m
  | _, _ => m

def execTsExchangeTimeout (s : State) := s.run tsExchangeTimeout

/-! ### Holdover and slot misalignment -/

/-- HOLDOVER_ENTRY (R156): no exchange has completed for 3 ms; another port toward the master takes over without a change of
state, otherwise TIME_STATE goes to HOLDOVER, whose limit begins (R202). -/
def holdoverEntry (g : Gen) (m : Mach) : Mach :=
  if isMaster g m || m.time.st ≠ .locked then m
  else m.onExpiry .exchange fun m =>
    let old := m.time.upstream
    let m := match old with
      | some u => passOver g m u
      | none => m
    if m.time.upstream ≠ old then m.startTimer .exchange (usUnits 3000)
    else (m.updT fun t => { t with st := .holdover, good := 0, bad := 0 }).startTimer .holdover (usUnits (1000 * m.time.holdLimit))

def execHoldoverEntry (s : State) := s.run holdoverEntry

/-- HOLDOVER_LIMIT (R156, R202). -/
def holdoverLimit (g : Gen) (m : Mach) : Mach :=
  if m.time.st = .holdover then m.onExpiry .holdover fun m => timeFault g m 0 else m

def execHoldoverLimit (s : State) := s.run holdoverLimit

/-- SLOT_MISALIGN (R160): an fc in which SC and ST are more than 2 apart while the pricking is ACTIVE. -/
def slotMisalign (g : Gen) (m : Mach) : Mach :=
  if prkRunning m && 2 < m.time.slotErr.natAbs then timeFault g (m.orReg g (key 0x3100 6) 4) 1 else m

def execSlotMisalign (s : State) := s.run slotMisalign

end Sys2Proof.Machine
end

