-- ==== Sys2Proof/Machine/Link.lean ====
section
/-! DEFINITION. Ndesil ports: frames out and in (R372-R383, R452, R398), the release stage and class-0 release (R166,
R378-R380, R384), training (R385-R396, R524, R525), and link power (R431-R433). -/

namespace Sys2Proof.Machine

open Sys2Proof

/-- Object `sub` of port p. -/
def portKey (p sub : Nat) : Nat := key (0x7100 + p) sub

def allChans : List Nat := List.range 6

/-! ### What a port discards, and its liveness -/

/-- Push a flit from the release stage to the Z input, as it stood on the wire. -/
def zPush (g : Gen) (m : Mach) (p c : Nat) (w : WireFlit) : Mach :=
  let e : LinkEnd := .rtr (g.zRouter p c) 6
  m.setWire e (m.wire e ++ [w])

/-- A filler flit: POISON = 1 and the FTYPE and FIDX its packet needs (R384). -/
def fillerFlit (v need i : Nat) : WireFlit :=
  ({ payload := 0, vc := v, ftype := if i + 1 = need then 2 else 0, poison := true, fvalid := true, crvalid := false, crvc := 0,
     lseq := 0, fidx := i } : Flit).pack

/-- Complete the packets whose heads have left the release stage: what is here, then fillers; the real flits are swallowed
when they come (R384). -/
def fillOpened (g : Gen) (m : Mach) (p c : Nat) : Mach :=
  let (out, x) := (m.chan p c).opened.foldl (fun (acc : List WireFlit × Chan) (v, need, next) =>
    let (ws, x) := Chan.takeVc acc.2 v (need - next)
    let k := next + ws.length
    let fill := (List.range (need - k)).map fun j => fillerFlit v need (k + j)
    (acc.1 ++ ws ++ fill, { x with swallow := x.swallow.put v (x.swallow.getD v 0 + (need - k)) })) ([], m.chan p c)
  out.foldl (fun m w => zPush g m p c w) (m.updC p c fun _ => { x with opened := [] })

/-- Class-0 flits lost by a port (R166, R389). -/
def c0Lost (g : Gen) (m : Mach) (p n : Nat) : Mach := if n = 0 then m else m.addWrap g (portKey p 0x0D) n

/-- Discard the unicast packets that wait in the input VCs of a Z router for its Z output; a multicast packet's copy is
abandoned by R136. -/
def dropWaiting (g : Gen) (m : Mach) (r : Nat) : Mach :=
  let waits (b : BufPkt) : Bool := !b.pkt.hdr.mcast && b.todo.contains 6
  (inputsOf g r).foldl (fun m p => (List.range 12).foldl (fun m v =>
    let hit := ((m.inp g r p).vcs.getD v []).filter waits
    if hit.isEmpty then m
    else
      let m := m.updIn r p fun i => { i with vcs := i.vcs.upd v fun q => q.map fun b => if waits b then { b with todo := [] } else b }
      hit.foldl (fun m b => refuseDead g (m.cntR g r 0x0C) r 6 b.pkt.hdr) m) m) m

/-- Packets queued for the Z output of a router, in intermediate slots too. -/
def queuedFor (g : Gen) (m : Mach) (r : Nat) : Nat :=
  (m.outp g r 6).q.length + ((m.rt g r).mids.filter fun x => x.2.2 == 6).length

/-- Discard replay and receive buffers and every packet queued for the port's channels, in the Z output queues and in the
Z routers' inputs (R390, R524). -/
def portDiscard (g : Gen) (m : Mach) (p : Nat) : Mach :=
  allChans.foldl (fun m c =>
    let m := fillOpened g m p c
    let m := m.updC p c fun _ => Chan.reset
    let r := g.zRouter p c
    if (g.zAt r).isSome then dropWaiting g (killQueue g (m.cntR g r 0x0C (queuedFor g m r)) r 6) r else m) m

/-- ROUTE_PORT_ALIVE of a port and the upstream follow its liveness (R389, R95, R153). -/
def noteLive (g : Gen) (m : Mach) (p : Nat) (before : List TimeAdv) : Mach :=
  let alive := m.reg g (key 0x2000 4)
  reposition g (m.setReg (key 0x2000 4) (setBit alive p (portLive m p))) before

/-- The timers of a port that run in one state of its link only. -/
def portTimer (p : Nat) : Timer → Bool
  | .nak q _ | .detect q | .mismatch q | .linkIdle q _ | .linkExit q => q == p
  | _ => false

/-- Move a port to a state in which it has no trained channel (R389) and no link power state (R431). -/
def linkLeave (g : Gen) (m : Mach) (p : Nat) (st : LinkState) : Mach :=
  let before := position g m
  let m := (m.stopTimers (portTimer p)).updP p fun x =>
    { x with link := st, trained := 0, pwr := 0, ask := 0, farAsk := 0, exiting := false }
  noteLive g (linkDomain g m p) p before

/-- The next repetition of DETECT or MISMATCH is 1 ms away (R386). -/
def repeatIn (m : Mach) (t : Timer) : Mach := m.startTimer t (usUnits 1000)

def peerNode (g : Gen) (m : Mach) (p : Nat) : BitVec 16 := BitVec.ofNat 16 (m.reg g (portKey p 7) / 65536)

/-- Class-0 flits still in the release queues are lost as the link leaves UP (R389). -/
def dropC0 (g : Gen) (m : Mach) (p : Nat) : Mach :=
  allChans.foldl (fun m c => (c0Lost g m p (m.chan p c).c0q.length).updC p c fun x => { x with c0q := [] }) m

/-- Enter RETRAIN (R386, R389); the far end is asked to when this end starts it. -/
def toRetrain (g : Gen) (m : Mach) (p cause : Nat) (ask : Bool) : Mach :=
  let m := dropC0 g (linkLeave g m p .retrain) p
  let m := (m.updP p fun x => { x with keep := true }).addWrap g (portKey p 0x0C) 1
  if ask then m.sideband g p 0x03 [BitVec.ofNat 8 cause] else m

/-- The retrain of R385. -/
def autoRetrain (g : Gen) (m : Mach) (p : Nat) : Mach :=
  if (m.port p).link ≠ .up then m else toRetrain g (logEv g m (logP p) 0x1A 0 (peerNode g m p)) p 0 true

/-- FAILED, with its cause (R390). -/
def toFailed (g : Gen) (m : Mach) (p cause : Nat) : Mach :=
  let m := linkLeave g (m.setReg (portKey p 5) cause) p .failed
  portDiscard g ((logEv g m (logP p) 0x1B 0 (peerNode g m p) cause).updP p fun x => { x with keep := false, retrainFails := 0 }) p

/-- DETECT: the far end is called on the sideband (R386). -/
def toDetect (g : Gen) (m : Mach) (p : Nat) : Mach :=
  repeatIn ((linkLeave g (m.updP p fun x => { x with keep := false, retrainFails := 0, heard := none }) p .detect).sideband g p
    0x02 (trainBytes 0 [])) (.detect p)

/-! ### Sending (R372-R376, R381, R383) -/

/-- Fill the free positions of a frame from a queue. -/
def fillFrame {α : Type} : List (Option α) → List α → List (Option α) × List α
  | [], xs => ([], xs)
  | some a :: r, xs => let (ps, ys) := fillFrame r xs; (some a :: ps, ys)
  | none :: r, [] => let (ps, ys) := fillFrame r []; (none :: ps, ys)
  | none :: r, x :: xs => let (ps, ys) := fillFrame r xs; (some x :: ps, ys)

/-- a comes no more than n before b, modulo 256. -/
def lseqDist (a b : Nat) : Nat := (b + 256 - a % 256) % 256

/-- What a channel has still to send again, in LSEQ order (R383). -/
def Chan.again (x : Chan) : List (Nat × Bool × WireFlit) :=
  match x.resend with
  | some (a, _) => x.replay.dropWhile fun (_, _, w) => wfLseq w != a
  | none => []

/-- The flits of the next frame of a channel, the channel afterwards, and whether the frame starts a replay. The frame
covers the eight slots from `base`; a class-0 flit takes the position of its slot (R373, R383). -/
def frameFlits (x : Chan) (base : Nat) : List (Option (Nat × Bool × WireFlit)) × Chan × Bool :=
  let (c0, low) := x.txq.partition fun (_, _, w) => 12 ≤ wfVc w
  let own := (List.range 8).map fun k => c0.find? fun (s, _, _) => s == base + k
  let rest := (List.range 8).foldl (fun l k => l.eraseP fun (s, _, _) => s == base + k) c0
  let (late, keep) := rest.partition fun (s, _, _) => s < base
  let (ps, late) := fillFrame own late
  let (ps, left) := fillFrame ps (x.again ++ low)
  let n := x.again.length + low.length - left.length
  let fresh := low.take (n - x.again.length)
  let resend :=
    if n = 0 then x.resend
    else if n < x.again.length then (left.head?).map fun (_, _, w) => (wfLseq w, false)
    else none
  (ps, { x with txq := keep ++ late ++ low.drop fresh.length, replay := x.replay ++ fresh, resend := resend },
    (match x.resend with | some (_, first) => first | none => false) && 0 < n)

def idleWord : WireFlit := (idleFlit none).pack

/-- Nibbles of VC_CREDITS: at most 15 of what is owed to each VC (R380). -/
def creditField (owed : Tab Nat) : Nat := ((List.range 12).map fun v => min 15 (owed.getD v 0) * 16 ^ v).sum

/-- A frame of channel c with no flit and nothing to report (R372). -/
def idleFrame (c base : Nat) (hdr : BitVec 64) : Frame :=
  { flits := List.replicate 8 idleWord, ackLseq := 0, ackValid := false, nak := false, tsMark := 0, chan := BitVec.ofNat 3 c, on := c
    replay := false, frameSlot := BitVec.ofNat 16 base, vcCredits := 0, poolCredits := 0, poolMap := 0, crc := 0, sfHdr := hdr
    rxErr := false }

/-- The time mark the next frame carries: a reply not before its time (R398). -/
def Chan.mark (x : Chan) (now : Nat) : Nat := if x.tsMark = 2 && now < x.tsFrom then 0 else x.tsMark

/-- The frame of a channel, and the channel afterwards (R372-R376, R380, R383). -/
def buildFrame (x : Chan) (c base now : Nat) (hdr : BitVec 64) : Frame × Chan :=
  let (ps, y, first) := frameFlits x base
  let mark := x.mark now
  ({ idleFrame c base hdr with
      flits := ps.map fun o => ((o.map fun (_, _, w) => w).getD idleWord)
      ackLseq := BitVec.ofNat 8 (x.e + 255), ackValid := x.ackDue, nak := x.nakDue, tsMark := BitVec.ofNat 2 mark
      replay := first
      vcCredits := BitVec.ofNat 48 (creditField x.owed), poolCredits := BitVec.ofNat 4 (min 15 x.owedPool)
      poolMap := BitVec.ofNat 8 ((ps.zipIdx.map fun (o, k) => if (o.map fun (_, b, _) => b).getD false then 2 ^ k else 0).sum) },
   { y with ackDue := false, nakDue := false, tsMark := if mark = 0 then x.tsMark else 0, owedPool := x.owedPool - min 15 x.owedPool
            owed := (x.owed.map fun (v, n) => (v, n - min 15 n)).filter fun (_, n) => n != 0 })

/-- The stamp of a time mark that leaves: fabric time with UI slot 0 of the superframe on the bumps, 2 fc after the slot of
position 0, so 5 fc before the slot of position 7 (R377, R398, DEDUCED log 178). -/
def txStamp (m : Mach) : Nat := stamp125 (m.ft - fcUnits 5)

/-- What a time mark that leaves port p does (R398): a request has its t1; a reply has its t3, and TS_VALUES follows. -/
def markSent (g : Gen) (p now : Nat) (m : Mach) (f : Frame) : Mach :=
  if f.tsMark = 1 then m.updT fun t => { t with t1 := t.t1.map fun _ => now }
  else if f.tsMark = 2 then
    match m.time.reply.get? p with
    | some t2 => (m.updT fun t => { t with reply := t.reply.del p }).sideband g p 0x04 (tsBytes t2 now)
    | none => m
  else m

/-- Channels carried by n enabled groups or modules (R387, R393), and whether the UCIe rate is 16 GT/s. -/
def channelsFor (phy n : Nat) (slow : Bool) : Nat :=
  if phy = 0 then [0, 1, 2, 4, 6].getD n 6
  else if slow then [0, 0, 1, 2, 3].getD n 3
  else [0, 1, 3, 5, 6].getD n 6

/-- The UCIe port runs at 16 GT/s. -/
def slowPort (g : Gen) (m : Mach) (p : Nat) : Bool := m.cfg g (portKey p 3) == 16

/-- Lanes and unit intervals of the superframes of a short-reach port with n channels: those of the fewest groups of 56 or
modules of 64 lanes that carry them, and 128 unit intervals in 8 fc at 32 Gb/s (R373, R393). DEDUCED (log 179): with groups
disabled the superframe holds the trained channels' frames, spread over the lanes that are left. -/
def laneShape (g : Gen) (m : Mach) (p n : Nat) : Nat × Nat :=
  let slow := slowPort g m p
  let groups := ((List.range 5).find? fun k => n ≤ channelsFor (g.phy p) k slow).getD 4
  if g.phy p = 0 then (56 * groups, 128) else (64 * groups, if slow then 64 else 128)

/-- The first 40 bits of a sideband stream, its first byte on top (R374, R397). -/
def sbChunk (bs : List Byte) : Nat := (List.range 5).foldl (fun n i => n * 256 + (bs.getD i 0).toNat) 0

/-- Class-0 flits are lost while a link that was UP trains again (R389). -/
def c0Losing (x : Port) : Bool := x.keep && (x.link == .retrain || x.link == .param || x.link == .mismatch)

/-- Class-0 flits that meet a link which is not UP. -/
def dropSent (g : Gen) (p : Nat) (m : Mach) (c : Nat) : Mach :=
  let n := ((m.chan p c).txq.filter fun (_, _, w) => 12 ≤ wfVc w).length
  let m := if c0Losing (m.port p) then c0Lost g m p n else m
  m.updC p c fun y => { y with txq := y.txq.filter fun (_, _, w) => wfVc w < 12 }

/-- Idle thresholds of a link toward STANDBY, SLEEP and OFF in ns (R431, R434). -/
def linkIdleNs (g : Gen) (m : Mach) (code : Nat) : Nat :=
  if code = 1 then m.reg g (key 0x8000 5) else m.reg g (key 0x8000 (4 + code)) * 1000

/-- The idle times of a link begin, with the thresholds of now (R431, R435). -/
def linkUsed (g : Gen) (m : Mach) (p : Nat) : Mach :=
  [1, 2, 3].foldl (fun m c => m.startTimer (.linkIdle p c) (nsUnits (linkIdleNs g m c))) m

/-- A frame that carries a flit. -/
def frameBusy (f : Frame) : Bool := f.flits.any wfValid

/-- The channels of port p that send frames now, those of an UP link its trained ones. -/
def sendingChans (g : Gen) (m : Mach) (p : Nat) (live : Bool) : List Nat :=
  if live then m.trainedChans p
  else if g.phy p = 1 then List.range (channelsFor 1 4 (slowPort g m p)) else allChans

/-- The bundle whose SB_CHUNK carries the sideband stream: of the lowest trained channel (R397). DESIGN CHOICE (log 185): with
none trained, the lowest bundle that is up. -/
def chunkBundle (m : Mach) (p : Nat) (chs : List Nat) (live : Bool) : Nat :=
  (if live then chs.head? else chs.find? fun c => bit (m.port p).serdes c).getD 0

/-- The frames of one superframe on the wire (R372, R373, R393, R395). -/
def emitFrames (g : Gen) (m : Mach) (p : Nat) (hdr : BitVec 64) (fs : List Frame) : Mach :=
  if g.phy p = 2 then fs.foldl (fun m f => m.emit (.bundle p f.on f f.beats)) m
  else
    let (lanes, uis) := laneShape g m p fs.length
    m.emit (.superframe p hdr fs (laneWords hdr fs lanes uis))

/-- SUPERFRAME_SEND (R372): one frame per channel every 8 fc, with flits where the link is UP and ACTIVE, and idle ones
otherwise; none while lanes carry the pattern of LANE_TRAIN (R387) or in a lower power state (R431). -/
def superframeSend (p : Nat) (g : Gen) (m : Mach) : Mach :=
  let x := m.port p
  if x.link = .up && x.pwr ≠ 0 then m
  else
    let live := x.link == .up
    let m := if live then m else allChans.foldl (dropSent g p) m
    if x.link = .laneTrain then m
    else
      let long := g.phy p == 2
      let base := m.time.sc - 7
      let chs := sendingChans g m p live
      let hdr := x.sfNum * 2 ^ 48 + x.mapEpoch * 2 ^ 44
      let hdrOf (c : Nat) : BitVec 64 := BitVec.ofNat 64 (hdr + if long && c == chunkBundle m p chs live then sbChunk x.sbOut else 0)
      let built := chs.map fun c => if live then buildFrame (m.chan p c) c base m.now (hdrOf c) else (idleFrame c base (hdrOf c), m.chan p c)
      let fs := built.map fun b => b.1.seal long
      let m := (chs.zip built).foldl (fun m (c, b) => m.updC p c fun _ => b.2) m
      let m := m.updP p fun x => { x with sfNum := (x.sfNum + 1) % 65536, sbOut := x.sbOut.drop 5 }
      let m := if fs.any frameBusy then linkUsed g m p else m
      fs.foldl (markSent g p (txStamp m)) (emitFrames g m p (BitVec.ofNat 64 hdr) fs)

def execSuperframeSend (p : Nat) (s : State) := s.runIf (s.gen.hasPort p) (superframeSend p)

/-! ### Receiving (R382, R452) -/

/-- Valid flits of VCs 0 to 11, with their positions. -/
def lowFlits (f : Frame) : List (Nat × WireFlit) :=
  (f.flits.zipIdx.filter fun (w, _) => wfValid w && wfVc w < 12).map fun (w, k) => (k, w)

def c0Flits (f : Frame) : List (Nat × WireFlit) :=
  (f.flits.zipIdx.filter fun (w, _) => wfValid w && 12 ≤ wfVc w).map fun (w, k) => (k, w)

/-- Flit positions of packets follow one another (R41), class-0 positions apart. -/
def orderOk (f : Frame) : List (Nat × WireFlit) → Bool
  | (k, a) :: (j, b) :: rest =>
    (if wfFidx b = 0 then 2 ≤ wfType a
     else wfVc a == wfVc b && wfFidx a + 1 == wfFidx b && wfType a < 2 &&
       (List.range (j - k)).all fun d => ((f.flits[k + d]?).map wfValid).getD false) && orderOk f ((j, b) :: rest)
  | _ => true

/-- Flits of the frame within their credits (R380). -/
def withinCredits (x : Chan) (f : Frame) : Bool :=
  let low := lowFlits f
  let pool := (x.rxbuf.filter (·.1)).length + x.owedPool + (low.filter fun (k, _) => f.poolMap.getLsbD k).length
  pool ≤ 196 && (List.range 12).all fun v =>
    (x.rxbuf.filter fun (b, w) => !b && wfVc w == v).length + x.owed.getD v 0 +
      (low.filter fun (k, w) => !f.poolMap.getLsbD k && wfVc w == v).length ≤ 5

/-- A frame that passes CRC16 and still breaks the link layer (R452). -/
def frameBroken (x : Chan) (f : Frame) : Bool :=
  !withinCredits x f || f.chan.toNat != f.on || f.tsMark == 3 || !orderOk f (lowFlits f) ||
    (List.range 8).any fun k => f.poolMap.getLsbD k && !((f.flits[k]?).map wfValid).getD false

/-- XING_DELAY of a port in force. -/
def xingDelay (g : Gen) (m : Mach) (p : Nat) : Nat := m.reg g (key 0x3002 (p + 1))

/-- The full slot number nearest to now that ends in a frame's 16 bits. -/
def fullSlot (sc low : Nat) : Nat :=
  let d := (low + 65536 - sc % 65536) % 65536
  if d < 32768 then sc + d else sc + d - 65536

/-- The class-0 flit in position k of a frame (R166). It came to the release queue when deskew delivered it, 7 - k fc before
the verdict that this is: too late for its release fc, or with the queue full, it is discarded and counted. One whose release fc
came before the verdict has been released, in the slot its FRAME_SLOT gave. Of a discarded frame, one still in the queue is
lost. -/
def takeC0Flit (g : Gen) (p : Nat) (f : Frame) (discarded : Bool) (m : Mach) (k : Nat) (w : WireFlit) : Mach :=
  let sc := m.time.sc
  let came := sc - (7 - k)
  let rel := fullSlot sc ((f.frameSlot.toNat + k) % 65536) + xingDelay g m p - 2
  let q := (m.chan p f.on).c0q
  if rel < came || 16 ≤ (q.filter fun x => came ≤ x.1).length then m.cntR g (g.zRouter p f.on) 0x0E
  else if rel < sc then zPush g m p f.on w
  else if discarded then c0Lost g m p 1
  else m.updC p f.on fun x => { x with c0q := x.c0q ++ [(rel, w)] }

/-- The class-0 flits of a frame, whose verdict is known (R166). -/
def takeC0 (g : Gen) (m : Mach) (p : Nat) (f : Frame) (discarded : Bool) : Mach :=
  (c0Flits f).foldl (fun m (k, w) => takeC0Flit g p f discarded m k w) m

/-- The accepted flits of VCs 0 to 11 enter the receive buffer; those of a packet already completed with fillers are
swallowed (R384). -/
def takeLow (x : Chan) (f : Frame) : Chan :=
  (lowFlits f).foldl (fun x (k, w) =>
    let v := wfVc w
    let pool := f.poolMap.getLsbD k
    if x.swallow.getD v 0 ≠ 0 then
      let x := { x with swallow := x.swallow.put v (x.swallow.getD v 0 - 1) }
      if pool then { x with owedPool := x.owedPool + 1 } else { x with owed := x.owed.put v (x.owed.getD v 0 + 1) }
    else { x with rxbuf := x.rxbuf ++ [(pool, w)] }) x

/-- LSEQ of the oldest flit not acknowledged. -/
def oldestLseq (x : Chan) : Nat :=
  match x.replay with
  | (_, _, w) :: _ => wfLseq w
  | [] =>
    match x.txq.find? fun (_, _, w) => wfVc w < 12 with
    | some (_, _, w) => wfLseq w
    | none => x.lseq

/-- Acknowledgement of a trailer (R381, R383, R385). -/
def takeAck (g : Gen) (m : Mach) (p : Nat) (f : Frame) : Mach :=
  let c := f.on
  let x := m.chan p c
  let a := f.ackLseq.toNat
  let n := lseqDist (oldestLseq x) (a + 1)
  if x.replay.length < n then m
  else if f.nak then
    let k := if x.naks ≠ 0 && x.nakSeq = a then x.naks + 1 else 1
    let m := m.updC p c fun x =>
      { x with replay := x.replay.drop n, resend := some ((a + 1) % 256, true), naks := k, nakSeq := a }
    let m := m.addWrap g (portKey p 0x0B) 1
    if m.reg g (portKey p 0x0E) ≤ k then autoRetrain g (m.updC p c fun x => { x with naks := 0 }) p else m
  else if f.ackValid then
    m.updC p c fun x => { x with replay := x.replay.drop n, naks := 0 }
  else m

/-- Credits of a trailer (R380). -/
def takeCredits (x : Chan) (f : Frame) : Chan :=
  let cr := (List.range 12).foldl (fun (t : Tab Nat) v => t.put v (t.getD v 0 + fld f.vcCredits.toNat (4 * v + 3) (4 * v))) x.cr
  { x with cr := cr, pool := x.pool + f.poolCredits.toNat }

/-- Fixed receive latency of a PHY in fc: on the Ndesil PHY UI slot 0 reaches the bumps 11 fc before its frame's verdict is
known (R377, DEDUCED log 178); a customer's own otherwise. -/
def rxLatency (g : Gen) (p : Nat) : Nat := if g.phy p = 0 then 11 else Config.phyRxLatency p

/-- The stamp of a time mark that came (R398). -/
def rxStamp (g : Gen) (m : Mach) (p : Nat) : Nat := stamp125 (m.ft - fcUnits (rxLatency g p))

/-- The time mark of an accepted frame (R398): a request is answered in the first frame at least 64 fc later; a reply has its t4. -/
def takeMark (g : Gen) (m : Mach) (p : Nat) (f : Frame) : Mach :=
  if f.tsMark = 1 then
    (m.updT fun t => { t with reply := t.reply.put p (rxStamp g m p) }).updC p f.on fun x =>
      { x with tsMark := 2, tsFrom := m.now + fcUnits 64 }
  else if f.tsMark = 2 && m.time.upstream = some p && m.time.t1.isSome then m.updT fun t => { t with t4 := some (rxStamp g m p) }
  else m

/-- A trailer of a good frame: credits and acknowledgement (R380, R381, R383); the mark only of a frame that is accepted. -/
def takeTrailer (g : Gen) (m : Mach) (p : Nat) (f : Frame) (accepted : Bool) : Mach :=
  let m := m.updC p f.on fun x => takeCredits x f
  takeAck g (if accepted then takeMark g m p f else m) p f

/-- The NAK of a channel is repeated 64 fc from now while the receiver discards (R382). -/
def nakIn (m : Mach) (p c : Nat) : Mach := m.startTimer (.nak p c) (fcUnits 64)

/-- The frame is discarded and a NAK sent; packets whose heads have left are completed (R382, R384, R385). -/
def refuseFrame (g : Gen) (m : Mach) (p : Nat) (f : Frame) (crc : Bool) : Mach :=
  let m := m.addWrap g (portKey p (if crc then 9 else 10)) 1
  let m := nakIn (m.updC p f.on fun x => { x with discarding := true, nakDue := true }) p f.on
  fillOpened g (takeC0 g m p f true) p f.on

/-- The frame is accepted (R382). -/
def acceptFrame (g : Gen) (m : Mach) (p : Nat) (f : Frame) : Mach :=
  ((takeC0 g m p f false).stopTimer (.nak p f.on)).updC p f.on fun x =>
    { takeLow x f with e := (x.e + (lowFlits f).length) % 256, discarding := false, ackDue := true }

/-- Frames that fail CRC in this tick (R385). -/
def countCrc (g : Gen) (m : Mach) (p : Nat) : Mach :=
  let m := m.updP p fun x => { x with crcFails := x.crcFails + 1 }
  if m.reg g (portKey p 0x0F) < (m.port p).crcFails then autoRetrain g m p else m

/-- FRAME_RECEIVE (R382): the verdict on a frame. -/
def frameReceive (p : Nat) (f : Frame) (g : Gen) (m : Mach) : Mach :=
  let po := m.port p
  if po.link ≠ .up || po.pwr ≠ 0 || !bit po.trained f.on then
    (if c0Losing po then c0Lost g m p (c0Flits f).length else m)
  else
    let long := g.phy p == 2
    let x := m.chan p f.on
    let crcBad := (long && f.rxErr) || f.crc != f.crc16 long
    let broken := !crcBad && frameBroken x f
    let first := ((lowFlits f).head?).map fun (_, w) => wfLseq w
    let bad := crcBad || broken
    let wait := x.discarding && !(!bad && f.replay && first = some x.e)
    let refuse := bad || (first.isSome && first ≠ some x.e)
    let m := if !bad && frameBusy f then linkUsed g m p else m
    let m := if wait then takeC0 g m p f true
      else if refuse then refuseFrame g m p f crcBad
      else acceptFrame g m p f
    if bad then countCrc g m p else takeTrailer g m p f (!wait && !refuse)

/-- A beat sequence that is no frame of the stream has no effect. -/
def execFrameReceive (p : Nat) (x : RxFrame) (s : State) :=
  match x.frame? with
  | some f => s.runIf (s.gen.hasPort p && f.on < 6) (frameReceive p f)
  | none => s.run fun _ m => m

/-- NAK_REPEAT (R382): every 64 fc while the receiver discards. -/
def nakRepeat (p c : Nat) (_g : Gen) (m : Mach) : Mach :=
  m.onExpiry (.nak p c) fun m => if (m.chan p c).discarding then nakIn (m.updC p c fun x => { x with nakDue := true }) p c else m

def execNakRepeat (p ch : Nat) (s : State) := s.runIf (s.gen.hasPort p && ch < 6) (nakRepeat p ch)

/-! ### Release (R166, R378, R379, R384) -/

/-- Release what is here of the packet of VC v whose head has left, or leaves now. -/
def releaseVc (g : Gen) (m : Mach) (p c v need next : Nat) : Mach :=
  let (ws, x) := Chan.takeVc (m.chan p c) v (need - next)
  let k := next + ws.length
  let m := m.updC p c fun _ => { x with opened := if k = need then x.opened.del v else x.opened.put v (need, k) }
  ws.foldl (fun m w => zPush g m p c w) m

/-- The oldest flit of each VC in the receive buffer, in order of arrival. -/
def vcHeads (x : Chan) : List (Nat × WireFlit) :=
  (x.rxbuf.foldl (fun (t : List (Nat × WireFlit)) (_, w) => if t.any fun (v, _) => v == wfVc w then t else t ++ [(wfVc w, w)]) [])

/-- The Z input's buffer of VC v has room for n flits (R68), and so has the bridge to it (R405). -/
def zRoom (g : Gen) (m : Mach) (p c v n : Nat) : Bool :=
  let r := g.zRouter p c
  let i := m.inp g r 6
  let owed := if mayReturn g m r 6 v then 0 else (i.credits.filter (· == v)).length
  bridgeRoom g m (.rtr r 6) n && i.occVc v + owed + ((m.wire (.rtr r 6)).filter fun w => wfValid w && wfVc w == v).length + n ≤ 5

/-- The packet's flits can leave before the next class-0 release. -/
def gapOk (m : Mach) (x : Chan) (n : Nat) : Bool := x.c0q.all fun (s, _) => s < m.time.sc || m.time.sc + n ≤ s

/-- RELEASE_STAGE (R378): go on with a packet that has begun to leave, or begin the oldest one that can; those passed over
are counted as held. What a packet lacks because its frame has been discarded is filled (R384). -/
def releaseStage (p c : Nat) (g : Gen) (m : Mach) : Mach :=
  let x := m.chan p c
  match x.opened with
  | (v, need, next) :: _ => releaseVc g m p c v need next
  | [] =>
    let ok (h : Nat × WireFlit) : Bool := zRoom g m p c h.1 (wfHdr h.2).flits && gapOk m x (wfHdr h.2).flits
    let heads := vcHeads x
    let held := (heads.takeWhile fun h => !ok h).map (·.1)
    let m := m.cntR g (g.zRouter p c) 0x0F (held.filter fun v => !x.heldVc.contains v).length
    let m := m.updC p c fun x => { x with heldVc := held ++ x.heldVc.filter fun v => !held.contains v }
    match heads.find? ok with
    | none => m
    | some (v, w) =>
      let m := releaseVc g (m.updC p c fun x => { x with heldVc := x.heldVc.filter (· != v) }) p c v (wfHdr w).flits 0
      if (m.chan p c).discarding then fillOpened g m p c else m

def execReleaseStage (p ch : Nat) (s : State) := s.runIf (s.gen.hasPort p && ch < 6) (releaseStage p ch)

/-- C0_RELEASE (R166): the oldest class-0 flit leaves in its release slot; one whose slot has passed is late. -/
def c0Release (p c : Nat) (g : Gen) (m : Mach) : Mach :=
  match (m.chan p c).c0q with
  | [] => m
  | (s, w) :: rest =>
    let m := m.updC p c fun x => { x with c0q := rest }
    if s < m.time.sc then m.cntR g (g.zRouter p c) 0x0E
    else zPush g (m.pass (s - m.time.sc)) p c w

def execC0Release (p ch : Nat) (s : State) := s.runIf (s.gen.hasPort p && ch < 6) (c0Release p ch)

/-! ### Training (R386-R397) -/

/-- DETECT_TIMEOUT (R386): every 1 ms. -/
def detectTimeout (p : Nat) (g : Gen) (m : Mach) : Mach :=
  if (m.port p).link ≠ .detect then m
  else m.onExpiry (.detect p) fun m => repeatIn ((m.setReg (portKey p 5) 1).sideband g p 0x02 (trainBytes 0 [])) (.detect p)

def execDetectTimeout (p : Nat) (s : State) := s.runIf (s.gen.hasPort p) (detectTimeout p)

/-- TRAIN (R386): the far end answers. -/
def train (p : Nat) (g : Gen) (m : Mach) : Mach :=
  if (m.port p).link ≠ .detect then m
  else ((m.stopTimer (.detect p)).updP p fun x => { x with link := .laneTrain }).sideband g p 0x02 (trainBytes 1 [])

def execTrain (r : TrainRx) (s : State) :=
  s.runIf (s.gen.hasPort r.p) (sbTake 0x02 (trainBytes r.step r.map) r.crc (train r.p))

/-- A receive group of the Ndesil PHY with at most two lanes in error, or a UCIe module with nothing that cannot be repaired
(R387, R392). -/
def okGroup (phy : Nat) (e : List Nat) : Bool := if phy = 0 then e.length ≤ 2 else e.isEmpty

/-- Spares used and groups disabled (LANE_STATUS), and the channels this direction trained. -/
def laneOutcome (phy : Nat) (slow : Bool) (errors : List (List Nat)) : Nat × Nat :=
  let e := (List.range 4).map fun i => errors.getD i []
  let status := (e.zipIdx.map fun (x, i) => if okGroup phy x then x.length * 4 ^ i else 2 ^ (8 + i)).sum
  (status, 2 ^ channelsFor phy (e.filter (okGroup phy)).length slow - 1)

/-- The lane map: of each group the lanes that spares replace, or the mark of a disabled one; on long-reach the bundles that are
not up. Nothing is listed where nothing is replaced. -/
def laneMap (phy : Nat) (serdes : Nat) (errors : List (List Nat)) : List (List Nat) :=
  let e := if phy = 2 then [allChans.filter fun c => !bit serdes c]
    else (List.range 4).map fun i => if okGroup phy (errors.getD i []) then errors.getD i [] else [255]
  if e.all List.isEmpty then [] else e

/-- A lane map in a TRAIN (log 185). -/
def mapBytes (map : List (List Nat)) : List Byte := map.flatMap fun e => BitVec.ofNat 8 e.length :: e.map (BitVec.ofNat 8)

/-- The PARAM this end sends (R388). -/
def ownParam (g : Gen) (m : Mach) (p : Nat) : ParamMsg :=
  { node := BitVec.ofNat 16 (m.node g), package := BitVec.ofNat 8 (m.package g), rank := BitVec.ofNat 8 (m.cfg g (key 0x2000 6))
    version := 0x000302, longReach := g.phy p == 2, xingClass0 := m.reg g (key 0x3003 (p + 1)) == 1, adv := advOf g m p }

def sendParam (g : Gen) (m : Mach) (p : Nat) : Mach := m.sideband g p 0x01 (ownParam g m p).bytes

/-- The cause for which a PARAM leads to MISMATCH (R27, R388), as TRAIN_CAUSE. -/
def paramFault (g : Gen) (m : Mach) (p : Nat) (x : ParamMsg) : Option Nat :=
  let same := x.package.toNat == m.package g
  if (g.phy p == 2) == same then some 3
  else if x.node.toNat = m.node g || 511 < x.node.toNat || 511 < m.node g then some 4
  else if 15 < x.rank.toNat then some 5
  else if x.version.toNat ≠ 0x000302 then some 6
  else none

/-- PORT_DIR of a far end: 1 UP, 2 DOWN (R99). -/
def dirOf (g : Gen) (m : Mach) (x : ParamMsg) : Nat :=
  let own := m.cfg g (key 0x2000 6)
  if x.rank.toNat < own || (x.rank.toNat = own && x.node.toNat < m.node g) then 1 else 2

/-- A channel that comes up for the first time: its sender holds every credit but those of the packets that have been granted
into the Z output queue already, which the pool gives (R380). -/
def freshChan (g : Gen) (m : Mach) (p c : Nat) : Mach :=
  let r := g.zRouter p c
  if (g.zAt r).isNone then m.updC p c fun _ => Chan.reset
  else
    let mids := ((m.rt g r).mids.filter fun x => x.2.2 == 6).map (·.2.1)
    let n := ((m.outp g r 6).q ++ mids).map fun t => t.need - t.sent
    let m := m.updC p c fun _ => { Chan.reset with pool := 196 - n.sum }
    let m := m.updOut r 6 fun o => { o with q := o.q.map fun t => { t with pool := true } }
    m.updR r fun rt => { rt with mids := rt.mids.map fun (k, t, o) => (k, { t with pool := t.pool || o == 6 }, o) }

/-- A channel that comes back: flits held are sent again from the last ACK_LSEQ, and the receiver says where it stands (R389). -/
def resumeChan (m : Mach) (p c : Nat) : Mach :=
  let m := m.updC p c fun x =>
    { x with resend := match x.replay with
               | (_, _, w) :: _ => some (wfLseq w, true)
               | [] => x.resend
             ackDue := true, nakDue := x.discarding }
  if (m.chan p c).discarding then nakIn m p c else m

/-- UP: the trained channels join (R380, R386, R389). -/
def linkUp (g : Gen) (m : Mach) (p : Nat) : Mach :=
  let before := position g m
  let keep := (m.port p).keep
  let m := allChans.foldl (fun m c => if keep then resumeChan m p c else freshChan g m p c) m
  let m := (m.setReg (portKey p 5) 0).updP p fun x =>
    { x with link := .up, trained := x.found, keep := true, retrainFails := 0, crcFails := 0, pwr := 0, ask := 0, farAsk := 0, exiting := false }
  let m := linkUsed g (linkDomain g ((m.stopTimer (.mismatch p)).updT fun t => { t with deaf := t.deaf.erase p }) p) p
  noteLive g m p before

/-- A PARAM that matches or not: to MISMATCH with its cause, or PORT_DIR set (R99, R388). -/
def paramVerdict (g : Gen) (m : Mach) (p : Nat) (x : ParamMsg) : Mach × Bool :=
  match paramFault g m p x with
  | some c =>
    let up := (m.port p).link == .up
    let m := m.setReg (portKey p 5) c
    let m := if up then dropC0 g (linkLeave g (m.updP p fun q => { q with keep := true }) p .mismatch) p
      else if (m.port p).link = .mismatch then m
      else linkLeave g m p .mismatch
    (if (m.deadline (.mismatch p)).isSome then m else repeatIn m (.mismatch p), false)
  | none => (m.setReg (key 0x2010 (p + 1)) (dirOf g m x), true)

/-- A PARAM judged in PARAM, MISMATCH or UP (R388). DEDUCED (log 44): an end that leaves MISMATCH sends its own PARAM once
more, so that the far end too has one to match (R386). -/
def judgeParam (g : Gen) (m : Mach) (p : Nat) (x : ParamMsg) : Mach :=
  let st := (m.port p).link
  let m := m.setReg (portKey p 7) (x.node.toNat * 65536 + x.package.toNat * 256 + x.rank.toNat)
  let m := m.updP p fun q => { q with peer := some x }
  match paramVerdict g m p x with
  | (m, false) => m
  | (m, true) =>
    let m := if st = .mismatch then sendParam g m p else m
    hearAdv g (if st = .up then m else linkUp g m p) p x.adv

/-- PARAM (R388). DESIGN CHOICE (log 45): one that comes while this end still trains waits until this end reaches PARAM. -/
def param (p : Nat) (x : ParamMsg) (g : Gen) (m : Mach) : Mach :=
  match (m.port p).link with
  | .param | .mismatch | .up => judgeParam g m p x
  | .laneTrain | .retrain => m.updP p fun q => { q with heard := some x }
  | _ => m

def execParam (r : SbRx) (x : ParamMsg) (s : State) :=
  s.runIf (s.gen.hasPort r.p) (sbTake 0x01 x.bytes r.crc (param r.p x))

/-- PARAM is reached: this end sends its own, and judges one that came early. -/
def enterParam (g : Gen) (m : Mach) (p : Nat) : Mach :=
  let h := (m.port p).heard
  let m := sendParam g (m.updP p fun q => { q with heard := none }) p
  match h with
  | some x => judgeParam g m p x
  | none => m

/-- LANE_TRAIN_DONE (R374, R387, R393, R394, R396): the far end is told the lane map. -/
def laneTrainDone (p : Nat) (r : LaneResult) (g : Gen) (m : Mach) : Mach :=
  let x := m.port p
  if x.link ≠ .laneTrain && x.link ≠ .retrain then m
  else
    let phy := g.phy p
    let (status, own) := laneOutcome phy (slowPort g m p) r.errors
    let found := (if phy = 2 then x.serdes else own) &&& r.farChannels % 64
    let m := if phy = 2 then
        (m.setReg (portKey p 8) (r.rawDelay % 65536)).setReg (key 0x3002 (p + 1)) (ceilDiv (r.rawDelay % 65536 + 16) 4 * 4)
      else
        m.setReg (portKey p 6) status
    let map := laneMap phy x.serdes r.errors
    let m := (m.updP p fun x => { x with map := map, mapEpoch := if map = x.map then x.mapEpoch else (x.mapEpoch + 1) % 16 }).sideband g p
      0x02 (trainBytes 2 (mapBytes map))
    if phy = 1 && 4 < r.latency then toFailed g m p 7
    else if found = 0 then
      (if x.link = .laneTrain then toFailed g m p 2
       else if m.reg g (portKey p 0x10) ≤ x.retrainFails + 1 then toFailed g m p 8
       else m.updP p fun x => { x with retrainFails := x.retrainFails + 1 })
    else enterParam g (m.updP p fun x => { x with link := .param, found := found }) p

def execLaneTrainDone (p : Nat) (x : LaneResult) (s : State) := s.runIf (s.gen.hasPort p) (laneTrainDone p x)

/-- PARAM_REPEAT (R386): every 1 ms. -/
def paramRepeat (p : Nat) (g : Gen) (m : Mach) : Mach :=
  if (m.port p).link = .mismatch then m.onExpiry (.mismatch p) fun m => repeatIn (sendParam g m p) (.mismatch p) else m

def execParamRepeat (p : Nat) (s : State) := s.runIf (s.gen.hasPort p) (paramRepeat p)

/-- RETRAIN_REQ (R386). -/
def retrainReq (p cause : Nat) (g : Gen) (m : Mach) : Mach :=
  if (m.port p).link = .up then toRetrain g m p cause false else m

def execRetrainReq (r : SbRx) (cause : Nat) (s : State) :=
  s.runIf (s.gen.hasPort r.p) (sbTake 0x03 [BitVec.ofNat 8 cause] r.crc (retrainReq r.p (cause % 256)))

/-- LINK_DOWN (R524). -/
def linkDown (p : Nat) (g : Gen) (m : Mach) : Mach :=
  if (m.port p).link = .down then m else toDetect g (portDiscard g m p) p

def execLinkDown (r : SbRx) (s : State) := s.runIf (s.gen.hasPort r.p) (sbTake 0x08 [] r.crc (linkDown r.p))

/-- SIDEBAND_REPEAT (R397): message k of those of the last 100 µs was dropped, and goes again when they are over (DESIGN CHOICE,
log 185). -/
def sidebandRepeat (p k : Nat) (g : Gen) (m : Mach) : Mach :=
  match (m.port p).sideband[k]? with
  | some (t, b) => sendBytes g ((m.advanceTo t).updP p fun x => { x with sideband := x.sideband.eraseIdx k }) p b
  | none => m

def execSidebandRepeat (t : SbSent) (s : State) := s.runIf (s.gen.hasPort t.p) (sidebandRepeat t.p t.k)

/-- SERDES_UP_CHANGE (R396): the channel of bundle b enters or leaves the trained set. -/
def serdesUpChange (p b : Nat) (up : Bool) (g : Gen) (m : Mach) : Mach :=
  if g.phy p ≠ 2 then m
  else
    let before := position g m
    let m := m.updP p fun x =>
      { x with serdes := setBit x.serdes b up, found := if x.link = .up then setBit x.found b up else x.found
               trained := if x.link = .up then setBit x.trained b up else x.trained }
    noteLive g m p before

def execSerdesUpChange (p b : Nat) (up : Bool) (s : State) := s.runIf (s.gen.hasPort p && b < 6) (serdesUpChange p b up)

/-! ### LINK_CMD (R525) -/

/-- RETRAIN. -/
def retrainCmd (p : Nat) (g : Gen) (m : Mach) : Mach :=
  match (m.port p).link with
  | .mismatch | .up => toRetrain g m p 0 true
  | .failed => toDetect g m p
  | _ => m

def retrain (p : Nat) (g : Gen) (m : Mach) : Mach × Nat := (retrainCmd p g m, mgOk)
def execRetrain (p : Nat) (s : State) := s.runWrite (s.gen.hasPort p) (retrain p)

/-- DISABLE (R524). -/
def disableCmd (p : Nat) (g : Gen) (m : Mach) : Mach :=
  if (m.port p).link = .down then m
  else portDiscard g (linkLeave g ((m.sideband g p 0x08 []).updP p fun x => { x with keep := false }) p .down) p

def disable (p : Nat) (g : Gen) (m : Mach) : Mach × Nat := (disableCmd p g m, mgOk)
def execDisable (p : Nat) (s : State) := s.runWrite (s.gen.hasPort p) (disable p)

/-- ENABLE. -/
def enableCmd (p : Nat) (g : Gen) (m : Mach) : Mach :=
  match (m.port p).link with
  | .down | .failed => toDetect g m p
  | _ => m

def enable (p : Nat) (g : Gen) (m : Mach) : Mach × Nat := (enableCmd p g m, mgOk)
def execEnable (p : Nat) (s : State) := s.runWrite (s.gen.hasPort p) (enable p)

/-! ### Link power (R431-R433) -/

/-- A link that carries a reservation, in the active or the armed bank (R168, R190, R196). -/
def linkReserved (g : Gen) (m : Mach) (p : Nat) : Bool :=
  allChans.any fun c =>
    let r := g.zRouter p c
    let uses (t : Tab Nat) : Bool := t.any fun (k, w) =>
      0x3800 + 8 * r ≤ k / 256 && k / 256 < 0x3800 + 8 * r + 7 && bit w 31 && (k / 256 == 0x3800 + 8 * r + 6 || fld w 29 27 == 6)
    uses m.prk.active || uses m.prk.armed

/-- Tolerance in ns of a LAT_TOL word, when it states one (R418). -/
def tolNs (w : Nat) : Option Nat := if bit w 12 then some (w % 1024 * 4 ^ fld w 15 13) else none

def minTol (a b : Option Nat) : Option Nat :=
  match a, b with
  | some x, some y => some (min x y)
  | some x, none => some x
  | none, y => y

/-- Tolerance of a link (R432): PORT_LAT_TOL and the tolerances of its Z regions. -/
def linkTol (g : Gen) (m : Mach) (p : Nat) : Option Nat :=
  allChans.foldl (fun t c => minTol t (tolNs (m.reg g (key (0x8100 + g.region (g.zRouter p c)) 5))))
    (tolNs (m.reg g (key 0x8301 (p + 1))))

/-- Some enabled multicast tree uses the link and cannot wait for SLEEP's exit (R432). -/
def linkMcast (g : Gen) (m : Mach) (p : Nat) : Bool :=
  m.cfg g (key 0x2000 2) < 4000 && allChans.any fun c =>
    m.regs.any fun (k, v) => 0x2300 ≤ k / 256 && k / 256 < 0x2304 && bit v 0 &&
      bit (m.groupEntry g (k - key 0x2300 0) (g.zRouter p c)) 6

/-- A WAKE holds the link layer's domain in P0 (R426). -/
def linkHeld (g : Gen) (m : Mach) (p : Nat) : Bool := ((g.port? p).map fun q => (m.dom q.dom).hold).getD false

/-- This end may ask for a lower state: power management is on, the link idles and nothing holds it up (R168, R426, R432). -/
def mayLower (g : Gen) (m : Mach) (p code : Nat) : Bool :=
  let tol := match linkTol g m p with
    | none => true
    | some t => linkExitNs code ≤ t
  m.reg g (key 0x8000 1) == 1 && (m.port p).link == .up && !linkReserved g m p && tol && !linkHeld g m p &&
    (code ≤ 1 || !(m.time.upstream == some p || (((m.port p).adv.map (·.via)).getD false) || linkMcast g m p)) &&
    allChans.all fun c => (m.chan p c).txq.isEmpty && (m.chan p c).replay.isEmpty && (m.chan p c).rxbuf.isEmpty

/-- The link enters the shallower of what both ends ask for; back to ACTIVE takes the exit latency (R432). -/
def settleLink (g : Gen) (m : Mach) (p : Nat) : Mach :=
  let x := m.port p
  let want := min x.ask x.farAsk
  if x.link ≠ .up || x.exiting then m
  else if want = 0 then (if x.pwr = 0 then m else linkExit g m p)
  else if want ≤ x.pwr then m
  else linkDomain g (m.updP p fun x => { x with pwr := want }) p

/-- LINK_IDLE_THRESHOLD (R432): the link has been idle for the threshold of a deeper state than this end asks for. -/
def linkIdleThreshold (p code : Nat) (g : Gen) (m : Mach) : Mach :=
  match m.deadline (.linkIdle p code) with
  | none => m
  | some d =>
    let m := m.advanceTo d
    if code ≤ (m.port p).ask || !mayLower g m p code then m
    else settleLink g ((m.updP p fun x => { x with ask := code }).sideband g p 0x06 [BitVec.ofNat 8 code]) p

def execLinkIdleThreshold (p code : Nat) (s : State) := s.runIf (s.gen.hasPort p) (linkIdleThreshold p code)

/-- PWR_REQ (R432). -/
def pwrReq (p code : Nat) (g : Gen) (m : Mach) : Mach :=
  if 3 < code || (m.port p).link ≠ .up then m
  else settleLink g (m.updP p fun x => { x with farAsk := code, ask := if code = 0 then 0 else x.ask }) p

def execPwrReq (r : SbRx) (code : Nat) (s : State) :=
  s.runIf (s.gen.hasPort r.p) (sbTake 0x06 [BitVec.ofNat 8 code] r.crc (pwrReq r.p (code % 256)))

/-- LINK_PWR_EXIT_DONE (R431): the exit latency is over; the link is ACTIVE, nothing discarded (R433). -/
def linkPwrExitDone (p : Nat) (g : Gen) (m : Mach) : Mach :=
  if !(m.port p).exiting then m
  else m.onExpiry (.linkExit p) fun m =>
    linkUsed g (linkDomain g (m.updP p fun x => { x with pwr := 0, ask := 0, farAsk := 0, exiting := false }) p) p

def execLinkPwrExitDone (p : Nat) (s : State) := s.runIf (s.gen.hasPort p) (linkPwrExitDone p)

end Sys2Proof.Machine
end

