-- ==== Sys2Proof/Machine/Power.lean ====
section
/-! DEFINITION. Clock and power domains: bridges in reset, reopened and dead (R410-R412), isolation (R448), the power
handshake (R416), power states (R417-R421), waking (R422-R426) and closing (R427-R429). -/

namespace Sys2Proof.Machine

open Sys2Proof

/-! ### What a domain holds -/

def routersIn (g : Gen) (d : Nat) : List Nat := g.routers.filter fun r => g.region r == d
def nisIn (g : Gen) (d : Nat) : List Nat := (g.nis.filter fun n => n.dom == d).map (·.loc)

/-- Every receiving end of an on-die link. -/
def allEnds (g : Gen) : List LinkEnd :=
  g.routers.flatMap (fun r => (g.portsOf r).map fun p => LinkEnd.rtr r p) ++ g.nis.map fun n => LinkEnd.ni n.loc

/-- Links into a domain, and out of it. -/
def endsInto (g : Gen) (d : Nat) : List LinkEnd := (allEnds g).filter fun e => endDomain g e == d && senderDomain g e != d
def endsOutOf (g : Gen) (d : Nat) : List LinkEnd := (allEnds g).filter fun e => endDomain g e != d && senderDomain g e == d
def endsInside (g : Gen) (d : Nat) : List LinkEnd := (allEnds g).filter fun e => endDomain g e == d && senderDomain g e == d

def routerHolds (m : Mach) (g : Gen) (r : Nat) : Bool :=
  let x := m.rt g r
  (x.ins.any fun (_, i) => !i.vcs.isEmpty) || (x.outs.any fun (_, o) => !o.q.isEmpty) || !x.mids.isEmpty

def niHolds (m : Mach) (g : Gen) (l : Nat) : Bool :=
  let n := m.ni l
  let t := n.tx
  (n.ep.ingress.any fun (_, q) => !q.isEmpty) || (n.ep.eject.any fun (_, q) => !q.isEmpty) || !n.ep.mem.isEmpty ||
  !t.second.isEmpty || !t.retxQ.isEmpty || !t.internal.isEmpty || !t.mirror.isEmpty || !t.held.isEmpty || !t.c0q.isEmpty ||
  (t.c0rsp.any fun (_, q) => !q.isEmpty) || n.rx.cur.isSome || !n.rx.arrived.isEmpty ||
  (List.range (g.engines l)).any fun s => ((g.engAt l s).map fun i => !(m.eng i).sendQ.isEmpty).getD false

/-- No flit on a link inside the domain, and at a bridge into it at most headers that are held upstream (R427). -/
def wiresClear (m : Mach) (g : Gen) (d : Nat) : Bool :=
  (endsInside g d).all (fun e => (m.wire e).all fun w => !wfValid w) &&
    (endsInto g d).all fun e => match (m.wire e).find? wfValid with
      | none => true
      | some w => wfType w == 1 || wfType w == 3

def domainHolds (m : Mach) (g : Gen) (d : Nat) : Bool :=
  (routersIn g d).any (routerHolds m g) || (nisIn g d).any (niHolds m g) || !wiresClear m g d

/-! ### Reset and death of a bridge's far side -/

/-- The survivor's receiving side: packets that have begun are completed with poisoned fillers; nothing returns credit
(R410). -/
def survivorReceives (g : Gen) (m : Mach) (e : LinkEnd) : Mach :=
  let m := m.setWire e []
  match e with
  | .rtr r p =>
    let m := fillClass0 g m r p
    m.updIn r p fun i =>
      { i with vcs := i.vcs.map fun (v, q) => (v, q.map fun b => { b.filled with freed := b.need }), cur := none, pos := 0, credits := [] }
  | .ni l => m.updRx l fun x => { x.completed with credits := [] }

/-- A packet of the NI's own that was discarded on its injection link (R410, R22). -/
def niRefuse (g : Gen) (m : Mach) (l : Nat) (h : Hdr) : Mach :=
  if h.np && !h.mcast then
    let m := dropRetx m l fun p => p.hdr.flow == h.flow && p.hdr.seq == h.seq
    match (m.ni l).tab.tags.get? h.tag.toNat with
    | some e =>
      let m := freeTag m l h.tag.toNat
      if e.fired then m else tagOutcome g m l e (ownRsp g m l h stUnreachable) false
    | none => m
  else unreachableAtNi g m l h

/-- Headers on a link, of class 0 too. -/
def wireHeads (m : Mach) (e : LinkEnd) : List Hdr :=
  ((m.wire e).filter fun w => wfValid w && (wfType w == 1 || wfType w == 3)).map wfHdr

/-- The survivor's sending side: its queue toward the far side is discarded and answered, and it holds no credit (R410). -/
def survivorSends (g : Gen) (m : Mach) (e : LinkEnd) : Mach :=
  let heads := wireHeads m e
  let m := m.setWire e []
  let fromRouter (m : Mach) (r o : Nat) : Mach :=
    let q := (m.outp g r o).q.filter fun t => t.sent == 0
    let hs := heads ++ q.map (·.pkt.hdr) ++ ((m.rt g r).mids.filter fun x => x.2.2 == o).map (·.2.1.pkt.hdr) ++ c0Heads (m.outp g r o).c0
    let m := m.updOut r o fun x => { x with q := [], sel := none, cr := [], lseq := 0, c0 := [] }
    let m := m.updR r fun x => { x with mids := x.mids.filter fun y => y.2.2 != o }
    hs.foldl (fun m h => refuseDead g m r o h) m
  match e with
  | .rtr r p =>
    if p = 6 then m
    else if p = 4 || p = 5 then
      let l := (g.niAt r p).getD 0
      heads.foldl (fun m h => niRefuse g m l h) (m.updTx l fun t => { t with cr := [], lseq := 0 })
    else fromRouter m (g.neighbour r p) (facing p)
  | .ni l => fromRouter m (g.niRouter l) (g.niPort l)

/-- Ports whose link layer lies in a domain. -/
def portsIn (g : Gen) (d : Nat) : List Nat := (g.ports.filter fun p => p.dom == d).map (·.p)

/-- What both sides of every bridge of domain d do when d no longer takes part. -/
def cutOff (g : Gen) (m : Mach) (d : Nat) : Mach :=
  let m := (endsOutOf g d).foldl (survivorReceives g) m
  let m := (endsInto g d).foldl (survivorSends g) m
  (portsIn g d).foldl (fun m p => allChans.foldl (fun m c => killQueue g m (g.zRouter p c) 6) m) m

/-- Everything a domain holds is lost; its settings stay with the dictionary (R237, R410, R417). -/
def loseContents (g : Gen) (m : Mach) (d : Nat) : Mach :=
  let m := (endsInside g d).foldl (fun m e => m.setWire e []) m
  let m := (routersIn g d).foldl (fun m r => m.updR r fun x =>
    { Router.reset g r with fs := x.fs, cyclic := x.cyclic, cause := x.cause, alive := x.alive, avoid := x.avoid, alpha := x.alpha }) m
  let m := (nisIn g d).foldl (niReset g) m
  (portsIn g d).foldl (fun m p =>
    allChans.foldl (fun m c => m.updC p c fun _ => Chan.reset) (linkLeave g (m.updP p fun x => { x with keep := false }) p .down)) m

/-- DEAD_TIMEOUT (R411). -/
def deadUnits (g : Gen) (m : Mach) : Nat := nsUnits (40 * m.reg g (key 0x8000 8))

/-- The object at k is a counter of a unit of domain d: an event counter, a histogram bucket or a count of R499 that the unit
keeps. -/
def counterOf (g : Gen) (d k : Nat) : Bool :=
  let i := k / 256
  let s := k % 256
  (0xA100 ≤ i && i < 0xA200 && g.region (i - 0xA100) == d && s < 0x20) ||
  (0xA200 ≤ i && i < 0xA280 && g.niDom (i - 0xA200) == d && (s < 0x40 || between 0x90 0x9F s)) ||
  (0x3600 ≤ i && i < 0x3680 && g.niDom (i - 0x3600) == d && between 1 5 s) ||
  (0x7100 ≤ i && i < 0x7108 && (portsIn g d).contains (i - 0x7100) && (between 9 13 s || s == 0x12))

/-- Counters of the domain's units (R496). -/
def countersOf (g : Gen) (m : Mach) (d : Nat) : Tab Nat := m.regs.filter fun (k, _) => counterOf g d k

/-- A reset of a domain clears its counters (R493). -/
def clearCounters (g : Gen) (m : Mach) (d : Nat) : Mach := { m with regs := m.regs.filter fun (k, _) => !counterOf g d k }

/-- BRIDGE_FAR_RESET (R410): domain d enters reset; its heartbeat stands still from now (R411). -/
def bridgeFarReset (d : Nat) (g : Gen) (m : Mach) : Mach :=
  if d = 0 || (m.dom d).inReset then m
  else
    let m1 := clearCounters g (loseContents g (cutOff g m d) d) d
    (m1.updD d fun x => { x with inReset := true }).startTimer (.dead d) (deadUnits g m)

def execBridgeFarReset (d : Nat) (s : State) := s.runIf (s.gen.hasDom d) (bridgeFarReset d)

/-- Initial credits and LSEQ 0 at both sides of one link direction (R410). -/
def reopenEnd (g : Gen) (m : Mach) (e : LinkEnd) : Mach :=
  let sender (m : Mach) (r o : Nat) : Mach := m.updOut r o fun x =>
    { x with lseq := 0, cr := (List.range 12).map fun v => (v, 5 - ((x.q.filter fun t => t.vc == v).map (·.need)).sum) }
  match e with
  | .rtr r p =>
    let m := m.updIn r p fun i => { i with lseq := 0 }
    if p = 6 then m
    else if p = 4 || p = 5 then m.updTx ((g.niAt r p).getD 0) fun t => { t with lseq := 0, cr := fullCredits }
    else sender m (g.neighbour r p) (facing p)
  | .ni l => sender (m.updRx l fun x => { x with lseq := 0 }) (g.niRouter l) (g.niPort l)

/-- The domains across the bridges of domain d (R403). -/
def neighbours (g : Gen) (d : Nat) : List Nat := (endsInto g d).map (senderDomain g) ++ (endsOutOf g d).map (endDomain g)

/-- One round trip, 3 T_s + 3 T_r, of the slowest bridge of domain d (R407). -/
def roundTrip (g : Gen) (m : Mach) (d : Nat) : Nat :=
  let t (x : Nat) : Nat := ceilDiv (nsUnits 1000) (max 1 (m.cfg g (domKey x 2)))
  (neighbours g d).foldl (fun n x => max n (3 * t d + 3 * t x)) 0

def reopenBridges (g : Gen) (m : Mach) (d : Nat) : Mach := (endsInto g d ++ endsOutOf g d).foldl (reopenEnd g) m

/-- BRIDGE_REOPEN (R410, R412): one round trip after both sides have left reset. -/
def bridgeReopen (d : Nat) (g : Gen) (m : Mach) : Mach :=
  if !(m.dom d).inReset || (m.dom d).st = .p3 then m
  else
    let m := (m.advanceTo (m.now + roundTrip g m d)).stopTimer (.dead d)
    (reopenBridges g m d).updD d fun x => { x with inReset := false, dead := false, st := .p0, goal := 0, hinted := false, woke := m.now }

def execBridgeReopen (d : Nat) (s : State) := s.runIf (s.gen.hasDom d) (bridgeReopen d)

/-- Every port is disabled as LINK_CMD DISABLE does, the logs freeze, ingress credit stops (R448). -/
def isolate (g : Gen) (m : Mach) : Mach :=
  if m.sh.isolated then m
  else
    let m := logEv g m 0x9000 0x1C
    let m := g.ports.foldl (fun m q => disableCmd q.p g m) m
    m.updSh fun s => { s with isolated := true }

/-- Every bridge of domain d is dead (R411, R416). -/
def declareDead (g : Gen) (m : Mach) (d aux : Nat) : Mach :=
  if (m.dom d).dead then m
  else
    let m := logEv g (m.orReg g (domKey d 7) 4) (logD d) 0x13 0 0 aux
    let m := (cutOff g m d).updD d fun x => { x with dead := true }
    if d = g.niDom 0 then isolate g m else m

/-- BRIDGE_DEAD (R411): DEAD_TIMEOUT ao cycles without a heartbeat, counted only while the far domain is P0, CLOSING or WAKING,
or in reset. DESIGN CHOICE (log 182): a clock that stops otherwise stops as the row begins. In domain 0 or the Shuttle's NI
domain the management crossing dies with it (R403, R448). -/
def bridgeDead (d : Nat) (g : Gen) (m : Mach) : Mach :=
  let x := m.dom d
  let stops (f : Mach → Mach) : Mach := f (m.advanceTo (m.now + deadUnits g m))
  if d = 0 then stops (isolate g)
  else if x.inReset && x.st = .p0 then m.onExpiry (.dead d) fun m => declareDead g m d 0
  else if x.st = .p0 || x.st = .closing || x.st = .waking then stops fun m => declareDead g m d 0
  else m

def execBridgeDead (d : Nat) (s : State) := s.runIf (s.gen.hasDom d) (bridgeDead d)

/-! ### Conditions for a deeper state (R420) -/

/-- A VALID entry or descriptor in the active or the armed bank (R168, R190, R196). -/
def c0Pinned (g : Gen) (m : Mach) (d : Nat) : Bool :=
  let pins (t : Tab Nat) : Bool := t.any fun (k, w) =>
    let i := k / 256
    if 0x3800 ≤ i then bit w 31 && g.region ((i - 0x3800) / 8) == d
    else if 0x3400 ≤ i then bit w 127 && g.hasNi ((i - 0x3400) % 256) && g.niDom ((i - 0x3400) % 256) == d
    else false
  pins m.prk.active || pins m.prk.armed

/-- A router of the domain lies on the tree of an enabled group. -/
def mcastIn (g : Gen) (m : Mach) (d : Nat) : Bool :=
  m.regs.any fun (k, v) => 0x2300 ≤ k / 256 && k / 256 < 0x2304 && bit v 0 &&
    (routersIn g d).any fun r => m.groupEntry g (k - key 0x2300 0) r % 128 != 0

def niTimers (m : Mach) (l : Nat) : Bool :=
  let n := m.ni l
  !n.tab.tags.isEmpty || !n.tab.retx.isEmpty || !n.tx.held.isEmpty || !n.tab.pending.isEmpty || n.tab.dst.any fun f => f.nack.isSome

def flowsBusy (g : Gen) (m : Mach) (l : Nat) : Bool :=
  let idle := flowIdle g m l
  (m.ni l).tab.src.any (fun f => m.now < f.lastInj + idle) || (m.ni l).tab.dst.any fun f => m.now < f.lastRx + idle

/-- The conditions that keep domain d from state s, as the bits of PWR_PIN (R420, R434). -/
def pinBits (g : Gen) (m : Mach) (d s : Nat) : Nat :=
  (c0Pinned g m d).toNat +
  2 * (2 ≤ s && mcastIn g m d && m.cfg g (key 0x2000 2) < exitNs g m d s : Bool).toNat +
  4 * (2 ≤ s && (nisIn g d).any (niTimers m) : Bool).toNat +
  8 * (s == 3 && (nisIn g d).any (flowsBusy g m) : Bool).toNat +
  16 * (m.reg g (domKey d 4) < s : Bool).toNat +
  32 * (m.dom d).hold.toNat

/-- A unit of the domain in STOPPING or STARTING. -/
def unitsChanging (g : Gen) (m : Mach) (d : Nat) : Bool :=
  let ch (f : FState) : Bool := f == .stopping || f == .starting
  (routersIn g d).any (fun r => ch (m.rt g r).fs) || (nisIn g d).any fun l => ch (m.ni l).fs

/-- Whether domain d may go to state s. -/
def mayEnterState (g : Gen) (m : Mach) (d s : Nat) : Bool :=
  let tol := match tolNs (m.reg g (domKey d 5)) with
    | none => true
    | some t => exitNs g m d s ≤ t
  (g.domKind d == 1 || g.domKind d == 2) && m.reg g (key 0x8000 1) == 1 && !(m.dom d).dead && !(m.dom d).inReset && tol &&
    pinBits g m d s == 0 && !domainHolds m g d && !unitsChanging g m d

/-- Since when domain d has carried no flit, its last waking at the earliest (R420, R425). -/
def idleSince (g : Gen) (m : Mach) (d : Nat) : Nat :=
  (nisIn g d).foldl (fun t l => max t (m.ni l).used) ((routersIn g d).foldl (fun t r => max t (m.rt g r).used) (m.dom d).woke)

/-- IDLE_P1, IDLE_P2 or IDLE_P3 for an idle count that started at time `t`: a later write does not touch it (R434, R435). -/
def idleLen (g : Gen) (m : Mach) (t s : Nat) : Nat :=
  let v := match m.sh.idleHist.find? fun e => t < e.1 with
    | some (_, vs) => vs.getD (s - 1) 0
    | none => m.reg g (key 0x8000 (1 + s))
  if s = 1 then fcUnits v else usUnits v

/-- When domain d has been idle for the threshold of state s. -/
def idleAt (g : Gen) (m : Mach) (d s : Nat) : Nat := idleSince g m d + idleLen g m (idleSince g m d) s

/-- The state PWR_PIN is judged for (DEDUCED, log 183): the deepest whose idle threshold has been reached, at least P1. -/
def judgedState (g : Gen) (m : Mach) (d : Nat) : Nat := ([3, 2].find? fun s => idleAt g m d s ≤ m.now).getD 1

/-- The deepest state below `cur` that meets every condition of R420. -/
def deepest (g : Gen) (m : Mach) (d cur : Nat) : Option Nat :=
  [3, 2, 1].find? fun s => cur < s && idleAt g m d s ≤ m.now && mayEnterState g m d s

/-- The domain enters CLOSING on its way to state s (R427), for CLOSE_TIMEOUT at most (R429). -/
def enterClosing (g : Gen) (m : Mach) (d s : Nat) : Mach :=
  (m.updD d fun x => { x with st := .closing, goal := s }).startTimer (.close d) (usUnits (m.reg g (key 0x8000 9)))

/-- Toward a deeper state: from P0 through CLOSING; from P1 and P2 first to P0, without which no deeper state is entered (R421). -/
def descend (g : Gen) (m : Mach) (d cur s : Nat) : Mach :=
  if cur = 0 then enterClosing g m d s else (beginWake g m d).updD d fun x => { x with goal := s }

/-- DOMAIN_IDLE_THRESHOLD (R420, R421, R429): at the next idle threshold that is still to come, or at once where the conditions
already hold, the domain is to go to the deepest state that meets every one of them. -/
def domainIdleThreshold (d : Nat) (g : Gen) (m : Mach) : Mach :=
  match ([PwrState.p0, .p1, .p2].findIdx? (· == (m.dom d).st)) with
  | none => m
  | some cur =>
    match deepest g m d cur with
    | some s => descend g m d cur s
    | none =>
      match ([1, 2, 3].filter fun s => cur < s && m.now < idleAt g m d s).map (idleAt g m d) with
      | [] => m
      | t :: ts =>
        let m := m.advanceTo (ts.foldl min t)
        match deepest g m d cur with
        | some s => descend g m d cur s
        | none => m

def execDomainIdleThreshold (d : Nat) (s : State) := s.runIf (s.gen.hasDom d) (domainIdleThreshold d)

/-! ### Closing (R427-R429) -/

/-- The events of the domain's units have crossed (R527). -/
def logsCrossed (g : Gen) (m : Mach) (d : Nat) : Bool :=
  m.logs.all fun (idx, l) => logDomain g idx != some d || (l.waiting.isNone && l.counts == l.applied)

/-- DOMAIN_CLOSE_DRAINED (R427): the clock is gated, or the supply is asked to change. -/
def domainCloseDrained (d : Nat) (g : Gen) (m : Mach) : Mach :=
  let x := m.dom d
  if x.st ≠ .closing || x.req ≠ 0 || domainHolds m g d || !logsCrossed g m d then m
  else if x.goal = 1 then (m.stopTimer (.close d)).updD d fun x => { x with st := .p1, goal := 0 }
  else if x.ack ≠ x.req then m
  else
    let c := if x.goal = 3 then countersOf g m d else []
    askSupply g ((m.stopTimer (.close d)).updD d fun x => { x with saved := c }) d (x.goal - 1)

def execDomainCloseDrained (d : Nat) (s : State) := s.runIf (s.gen.hasDom d) (domainCloseDrained d)

/-- CLOSE_TIMEOUT (R429): the idle time starts anew, so the domain is not tried again for one IDLE threshold. -/
def closeTimeout (d : Nat) (g : Gen) (m : Mach) : Mach :=
  let x := m.dom d
  if x.st ≠ .closing || x.req ≠ 0 then m
  else m.onExpiry (.close d) fun m =>
    (m.updD d fun x => { x with st := .p0, hinted := false, woke := m.now }).addWrap g (domKey d 10) 1

def execCloseTimeout (d : Nat) (s : State) := s.runIf (s.gen.hasDom d) (closeTimeout d)

/-- The supply has reached the state a CLOSING domain asked for; a hint that waited wakes it again (R428). The NIs of a domain in
P3 have already waited for FLOW_IDLE_TIME (R420, R269). -/
def enterLow (g : Gen) (m : Mach) (d : Nat) : Mach :=
  let x := m.dom d
  let m := if x.goal = 3 then
      let m := (nisIn g d).foldl (fun m l => m.startTimer (.niOpen l) 0) (loseContents g m d)
      m.updD d fun x => { x with st := .p3, inReset := true }
    else m.updD d fun x => { x with st := .p2 }
  if x.hinted then beginWake g m d else m

/-- PWR_ACK (R416, R453): an ack that changes while the request is steady kills the bridges. -/
def pwrAck (d code : Nat) (g : Gen) (m : Mach) : Mach :=
  let x := m.dom d
  if d = 0 || x.ack = code then m
  else
    let m := m.updD d fun x => { x with ack := code }
    let m := if code = x.req then m.stopTimer (.ack d) else m
    if x.ack = x.req then declareDead g m d 1
    else if code ≠ x.req then m
    else if g.domKind d = 3 then (portsIn g d).foldl (linkDomain g) m
    else if x.st = .closing then enterLow g m d
    else if x.st = .waking && code ≠ 0 then askSupply g m d 0
    else m

def execPwrAck (d code : Nat) (s : State) := s.runIf (s.gen.hasDom d && code < 4) (pwrAck d code)

/-- PWR_ACK_TIMEOUT (R416). -/
def pwrAckTimeout (d : Nat) (g : Gen) (m : Mach) : Mach :=
  if d = 0 || (m.dom d).ack = (m.dom d).req then m else m.onExpiry (.ack d) fun m => declareDead g m d 1

def execPwrAckTimeout (d : Nat) (s : State) := s.runIf (s.gen.hasDom d) (pwrAckTimeout d)

/-! ### Waking (R422-R426) -/

/-- The domains of a packet's route from router r, and the port whose link it takes (R422). -/
def wakeRoute (g : Gen) (m : Mach) (r : Nat) (dest : BitVec 16) (vn : BitVec 3) : List Nat × Option Nat :=
  match resolve g m r { Hdr.zero with dest := dest, vn := vn, cls := 1 } with
  | none => ([], none)
  | some (t, p) =>
    let ds := (routeFrom g r t p 40).map g.region
    if p = 6 then (ds, (g.zAt t).map (·.1)) else (ds ++ [g.niDom ((g.niAt t p).getD 0)], none)

/-- A hint may still wait: the domain's tolerance less its exit latency has not passed (R423). -/
def hintMayWait (g : Gen) (m : Mach) (d since : Nat) : Bool :=
  match tolNs (m.reg g (domKey d 5)) with
  | none => true
  | some t => m.now + nsUnits (exitNs g m d 3) < since + nsUnits t

/-- Domains leaving P3 now. -/
def leavingP3 (g : Gen) (m : Mach) : Nat := (g.doms.filter fun x => (m.dom x.d).st == .waking && (m.dom x.d).inReset).length

/-- WAKE_SEQUENCE_START (R422, R423): the oldest hint wakes every domain on its route at once. DESIGN CHOICE (log 184): while it
may be delayed it waits, where others are leaving P3 and those it wakes would exceed INRUSH_LIMIT. -/
def wakeSequenceStart (g : Gen) (m : Mach) : Mach :=
  match m.sh.hints with
  | [] => m
  | (d, r, dest, vn, t) :: rest =>
    let (ds, port) := wakeRoute g m r dest vn
    let off := ((d :: ds).eraseDups.filter fun x => (m.dom x).st == .p3).length
    if off ≠ 0 && leavingP3 g m ≠ 0 && m.reg g (key 0x8000 11) < leavingP3 g m + off && hintMayWait g m d t then m
    else
      let m := m.updSh fun s => { s with hints := rest }
      let m := (d :: ds).foldl (fun m x => if x = 0 then m else beginWake g m x) m
      match port with
      | some p => linkWake g m p
      | none => m

def execWakeSequenceStart (s : State) := s.run wakeSequenceStart

/-- What DOMAIN_WAKE_DONE does to the domain at the end of its exit latency (R417, R425, R496): it is in P0 again; after P3 its
bridges start afresh and its counters come back. Its idle time starts anew, unless it woke only to go deeper (R421). -/
def domainWakeDone (d : Nat) (g : Gen) (m : Mach) : Mach :=
  let x := m.dom d
  if x.st ≠ .waking || x.req ≠ 0 || x.ack ≠ 0 then m
  else m.onExpiry (.wake d) fun m =>
    let m := if x.inReset then
        let m := { m with regs := x.saved.foldl (fun t (k, v) => t.put k v) m.regs }
        (reopenBridges g m d).updD d fun x => { x with inReset := false, saved := [] }
      else m
    beginHold (m.updD d fun x => { x with st := .p0, goal := 0, hinted := false, woke := if x.goal = 0 then m.now else x.woke }) d

/-- Wake a domain without hint delay; that of a link layer wakes with its link (R417, R426, R432). -/
def wakeDomain (g : Gen) (m : Mach) (d : Nat) : Mach :=
  if g.domKind d = 3 then (portsIn g d).foldl (linkWake g) m else beginWake g m d

/-- Wake domains without hint delay and pin them in P0, from their waking on (R426). -/
def wakeDomains (g : Gen) (m : Mach) (h : Hdr) : Mach :=
  let us := h.csfFld 238 223
  let ds := if h.csfFld 239 239 = 1 then (g.doms.map (·.d)).filter (· != 0) else [h.csfFld 246 240].filter fun d => d != 0 && g.hasDom d
  ds.foldl (fun m d =>
    let m := (wakeDomain g m d).updD d fun x => { x with hold := x.hold || us != 0, holdUs := max x.holdUs us }
    if (m.dom d).st = .p0 then beginHold m d else m) m

/-- WAKE_HOLD_EXPIRY (R426). -/
def wakeHoldExpiry (d : Nat) (_g : Gen) (m : Mach) : Mach :=
  m.onExpiry (.wakeHold d) fun m => m.updD d fun x => { x with hold := x.holdUs != 0 }

def execWakeHoldExpiry (d : Nat) (s : State) := s.runIf (s.gen.hasDom d) (wakeHoldExpiry d)

/-- A unit that is to be reached wakes its domain first (R430). -/
def wakeUnit (g : Gen) (m : Mach) (fid : Nat) : Mach :=
  let n := fid % 4096
  let d := match fid / 4096 with
    | 1 => g.region n
    | 3 => g.niDom n
    | 4 => g.niDom (g.engHost n).1
    | 5 => ((g.port? n).map (·.dom)).getD 0
    | _ => 0
  if d = 0 then m else wakeDomain g m d

/-! ### Latency tolerance (R418, R419) -/

/-- The routers of every route between NI l and the other NIs and Z ports, both ways. -/
def routersOfNi (g : Gen) (l : Nat) : List Nat :=
  let here := (g.niRouter l, g.niPort l)
  let there := (g.nis.map fun n => (g.niRouter n.loc, n.port)) ++ (g.routers.filter fun r => (g.zAt r).isSome).map fun r => (r, 6)
  there.flatMap fun (r, p) => routeFrom g here.1 r p 40 ++ routeFrom g r here.1 here.2 40

/-- The smaller of two tolerance words. -/
def tolMin (a b : Nat) : Nat :=
  match tolNs a, tolNs b with
  | some x, some y => if y < x then b else a
  | none, some _ => b
  | _, none => a

/-- Compute DOM_TOL of every domain (R419). -/
def computeTol (g : Gen) (m : Mach) : Mach :=
  let nis := (g.nis.filter fun n => n.loc != 0 && (tolNs (m.reg g (key 0x8300 n.loc))).isSome).map fun n =>
    (n.dom, m.reg g (key 0x8300 n.loc), (routersOfNi g n.loc).map g.region)
  g.doms.foldl (fun m d =>
    let a := nis.foldl (fun t (nd, w, rs) => if nd == d.d || rs.contains d.d then tolMin t w else t) 0
    let b := if d.kind = 1 then
        g.ports.foldl (fun t q => if q.zrouters.any fun r => g.region r == d.d then tolMin t (m.reg g (key 0x8301 (q.p + 1))) else t) a
      else a
    if m.reg g (domKey d.d 5) = b then m else m.setReg (domKey d.d 5) b) m

end Sys2Proof.Machine
end

