-- ==== Sys2Proof/Machine/Pricking.lean ====
section
/-! DEFINITION. The pricking (R188-R198): the shadow bank, ARM with the checks of R190 in their order, the activation slot
(R193), DISARM, activation (R189, R194, R195) and STOP. -/

namespace Sys2Proof.Machine

open Sys2Proof

/-! ### The shadow bank -/

/-- A key of a reservation entry or of a class-0 descriptor. -/
def isPrkKey (k : Nat) : Bool :=
  let i := k / 256
  (0x3400 ≤ i && i < 0x347F) || (0x3500 ≤ i && i < 0x357F) || (0x3800 ≤ i && i < 0x3FFF)

/-- VALID of an entry or a descriptor. -/
def prkValid (k w : Nat) : Bool := if 0x3800 ≤ k / 256 then bit w 31 else bit w 127

/-- The entries and descriptors of the shadow bank, VALID or not. -/
def shadowBank (m : Mach) : Tab Nat := m.regs.filter fun (k, _) => isPrkKey k

/-- A bank without VALID entries and descriptors (R189). -/
def bankEmpty (t : Tab Nat) : Bool := t.all fun (k, w) => !prkValid k w

/-- An entry with its router and output, in ascending order. -/
structure PlacedRsv where
  r : Nat
  out : Nat
  e : Rsv
deriving DecidableEq, Repr

def placedRsvs (t : Tab Nat) : List PlacedRsv :=
  (t.filter fun (k, w) => 0x3800 ≤ k / 256 && bit w 31).map fun (k, w) =>
    ⟨(k / 256 - 0x3800) / 8, (k / 256 - 0x3800) % 8, Rsv.ofNat w⟩

/-- A descriptor: whether it is a source one, its NI, number and word. -/
structure C0Desc where
  source : Bool
  l : Nat
  j : Nat
  w : Nat
deriving DecidableEq, Repr

def descsOf (t : Tab Nat) : List C0Desc :=
  (t.filter fun (k, w) => k / 256 < 0x3800 && bit w 127).map fun (k, w) =>
    ⟨k / 256 < 0x3500, k / 256 % 256, k % 256, w⟩

/-- The two threads a descriptor names. -/
def C0Desc.ids (d : C0Desc) : List Nat := if rsvB d.w = 0 then [rsvA d.w] else [rsvA d.w, rsvB d.w]
def C0Desc.vn (d : C0Desc) : Nat := fld d.w 125 123
def C0Desc.peer (d : C0Desc) : Nat := fld d.w 119 104

/-! ### PRK_REFUSAL (R191) -/

def prkRefusal (code r port id : Nat) : Nat := code * 2 ^ 24 + r % 256 * 2 ^ 16 + port % 8 * 2 ^ 13 + id % 4096

/-- DEDUCED (log 30): a refusal about a descriptor names the router and port of its NI. -/
def descRefusal (g : Gen) (code : Nat) (d : C0Desc) (id : Nat) : Nat := prkRefusal code (g.niRouter d.l) (g.niPort d.l) id

def rsvRefusal (code : Nat) (x : PlacedRsv) : Nat := prkRefusal code x.r x.out x.e.id

/-! ### The checks of R190 -/

/-- What ARM judges: the shadow bank, its period, and the instance. -/
structure ArmView where
  g : Gen
  m : Mach
  p : Nat
  es : List PlacedRsv
  ds : List C0Desc

def armView (g : Gen) (m : Mach) : ArmView :=
  let t := shadowBank m
  ⟨g, m, m.reg g (key 0x3100 2), placedRsvs t, descsOf t⟩

/-- ENTRY_INVALID. -/
def checkEntries (v : ArmView) : Option Nat :=
  (v.es.findSome? fun x =>
    if x.e.len = 0 || 5 < x.e.len || v.p ≤ x.e.start || x.e.id = 0 || !v.g.hasRouterPort x.r x.e.inPort ||
        !v.g.hasRouterPort x.r x.out || x.e.inPort = x.out then some (rsvRefusal 1 x) else none).orElse fun _ =>
  v.ds.findSome? fun d =>
    if ! [0, 2, 3, 4].contains d.vn || (d.source && (fld d.w 122 120 = 0 || 5 < fld d.w 122 120)) ||
        (v.ds.any fun y => y.source == d.source && y.l == d.l && y.j < d.j && y.peer == d.peer && y.vn == d.vn) then
      some (descRefusal v.g 1 d 0)
    else none

/-- Slots an entry takes, modulo P. -/
def rsvSlots (p : Nat) (e : Rsv) : List Nat := (List.range e.len).map fun j => (e.start + j) % max p 1

/-- Entries on one link in turn: the first that meets a slot already taken (`cap` none), or that goes beyond `cap`. -/
def linkScan (p : Nat) (cap : Option Nat) : List Nat → List PlacedRsv → Option PlacedRsv
  | _, [] => none
  | used, x :: rest =>
    let s := rsvSlots p x.e
    let bad := match cap with
      | none => s.any fun y => used.contains y
      | some c => c < used.length + s.length
    if bad then some x else linkScan p cap (used ++ s) rest

/-- The links that carry reservations: each output, and each injection link (R167). -/
def scanLinks (v : ArmView) (cap : Option Nat) (code : Nat) : Option Nat :=
  let outs := v.g.routers.findSome? fun r => (List.range 7).findSome? fun o =>
    linkScan v.p cap [] (v.es.filter fun x => x.r == r && x.out == o)
  let ins := v.g.nis.findSome? fun n =>
    linkScan v.p cap [] (v.es.filter fun x => x.r == v.g.niRouter n.loc && x.e.inPort == n.port)
  match outs, ins with
  | some x, _ => some (rsvRefusal code x)
  | none, some x => some (prkRefusal code x.r x.e.inPort x.e.id)
  | none, none => none

/-- SLOT_OVERLAP and CAP_EXCEEDED. -/
def checkOverlap (v : ArmView) : Option Nat := scanLinks v none 2
def checkCap (v : ArmView) : Option Nat := scanLinks v (some (v.p / 4)) 3

/-- CLOCK_REGION: the region, or the domain of an NI whose link the entry uses, does not run at 2,000 MHz (R401). -/
def checkClock (v : ArmView) : Option Nat :=
  let slow (d : Nat) : Bool := v.m.cfg v.g (domKey d 2) != 2000
  v.es.findSome? fun x =>
    let niSlow (p : Nat) : Bool := ((v.g.niAt x.r p).map fun l => slow (v.g.niDom l)).getD false
    if slow (v.g.region x.r) || niSlow x.e.inPort || niSlow x.out then some (rsvRefusal 0x0A x) else none

/-- Slots from a router's output to the next router's (R165). -/
def hopSlots (g : Gen) (r out : Nat) : Nat := if g.longLinks.contains (r * 8 + out) then 2 else 1

/-- The entry of the same thread at a place, with a header slot. -/
def entryAt (v : ArmView) (id r inp slot : Nat) : Option PlacedRsv :=
  v.es.find? fun x => x.e.id == id && x.r == r && x.e.inPort == inp && (x.e.start + v.p - slot % max v.p 1) % max v.p 1 == 0

/-- An entry chains upstream and downstream on the die (R165); crossings have their digest. -/
def chains (v : ArmView) (x : PlacedRsv) : Bool :=
  let same (y : PlacedRsv) : Bool := y.e.len == x.e.len && y.e.vc13 == x.e.vc13
  let up :=
    if x.e.inPort ≤ 3 then
      let u := v.g.neighbour x.r x.e.inPort
      let o := facing x.e.inPort
      v.es.any fun y => y.e.id == x.e.id && y.r == u && y.out == o && (y.e.start + hopSlots v.g u o) % v.p == x.e.start && same y
    else true
  let down :=
    if x.out ≤ 3 then
      (entryAt v x.e.id (v.g.neighbour x.r x.out) (facing x.out) (x.e.start + hopSlots v.g x.r x.out)).any same
    else true
  up && down

/-- CHAIN_BROKEN: a link of the chain is missing, VC13 or LEN disagrees with the flow, or a descriptor's thread has no entry
at its NI. -/
def checkChains (v : ArmView) : Option Nat :=
  (v.es.findSome? fun x =>
    let ok := chains v x && v.ds.all fun d => !d.ids.contains x.e.id ||
      (x.e.vc13 == (d.vn == 2) && (!d.source || x.e.len == fld d.w 122 120))
    if ok then none else some (rsvRefusal 4 x)).orElse fun _ =>
  v.ds.findSome? fun d =>
    (d.ids.find? fun id => !(v.es.any fun x => x.e.id == id && x.r == v.g.niRouter d.l &&
      (if d.source then x.e.inPort == v.g.niPort d.l else x.out == v.g.niPort d.l))).map fun id => descRefusal v.g 4 d id

/-- NO_DESCRIPTOR. -/
def checkEnds (v : ArmView) : Option Nat :=
  v.es.findSome? fun x =>
    let named (src : Bool) (p : Nat) : Bool := match v.g.niAt x.r p with
      | some l => v.ds.any fun d => d.source == src && d.l == l && d.ids.contains x.e.id
      | none => true
    let begins := x.e.inPort == 4 || x.e.inPort == 5
    let ends := x.out == 4 || x.out == 5
    if (begins && !named true x.e.inPort) || (ends && !named false x.out) then some (rsvRefusal 5 x) else none

/-- Starts per period of a thread at its source NI. -/
def startsOf (v : ArmView) (l id : Nat) : Nat :=
  (v.es.filter fun x => x.e.id == id && x.r == v.g.niRouter l && x.e.inPort == v.g.niPort l).length

/-- Whether a node's NI is in this instance. -/
def localNi (v : ArmView) (fid : Nat) : Option Nat :=
  let f := BitVec.ofNat 16 fid
  if fidNode f = v.m.node v.g && v.g.hasNi (fidLocal f) then some (fidLocal f) else none

/-- REVERSE_FLOW_MISSING. What a target in another instance holds is a free value (log 31); an NI of this instance that was not
generated holds nothing. -/
def checkReverse (v : ArmView) : Option Nat :=
  v.ds.findSome? fun d =>
    if !d.source || !bit d.w 126 then none
    else
      let ok := match localNi v d.peer with
        | some t => v.ds.any fun y => y.source && y.l == t && y.vn == 2 && y.peer == (v.m.fid v.g d.l).toNat &&
            startsOf v d.l (rsvA d.w) ≤ startsOf v t (rsvA y.w) && startsOf v d.l (rsvB d.w) ≤ startsOf v t (rsvB y.w)
        | none => fidNode (BitVec.ofNat 16 d.peer) != v.m.node v.g && Config.farReverse d.peer v.m.fresh
      if ok then none else some (descRefusal v.g 0x0D d 0)

/-- The other end of a flow sits on the same router. -/
def sameRouter (v : ArmView) (d : C0Desc) : Bool :=
  match localNi v d.peer with
  | some l => v.g.niRouter l == v.g.niRouter d.l
  | none => false

/-- The ports that a thread of this instance leaves by. -/
def zPortsOut (v : ArmView) (id : Nat) : List Nat :=
  v.es.filterMap fun x => if x.e.id = id && x.out = 6 then (v.g.zAt x.r).map (·.1) else none

/-- PRIMARY and ALT of a node with a route (R94, R180). -/
def routePorts (w : Nat) : List Nat := fld w 14 12 :: (if bit w 11 then [fld w 10 8] else [])

/-- The threads of a source flow to another node leave by its PRIMARY and ALT ports (R180). -/
def crossesByRoute (v : ArmView) (d : C0Desc) : Bool :=
  let n := fidNode (BitVec.ofNat 16 d.peer)
  let w := v.m.nodeRoute v.g n
  n = v.m.node v.g || !d.source ||
    (bit w 15 && (zPortsOut v (rsvA d.w) ++ zPortsOut v (rsvB d.w)).all fun p => (routePorts w).contains p)

/-- TWIN_NOT_DISJOINT, as far as the threads run in this instance (R180, R510). -/
def twinShared (v : ArmView) (d : C0Desc) : Bool :=
  if rsvB d.w = 0 then !sameRouter v d
  else if sameRouter v d then true
  else
    let of_ (id : Nat) := v.es.filter fun x => x.e.id == id
    let a := of_ (rsvA d.w)
    let b := of_ (rsvB d.w)
    let ends := v.g.niRouter d.l :: ((localNi v d.peer).map v.g.niRouter).toList
    let zports (xs : List PlacedRsv) : List Nat :=
      xs.filterMap fun x => if x.out = 6 || x.e.inPort = 6 then (v.g.zAt x.r).map (·.1) else none
    a.any (fun x => b.any fun y => x.r == y.r && (!ends.contains x.r || (x.out == y.out && (x.out ≤ 3 || x.out == 6)))) ||
      ((zports a).any fun p => (zports b).contains p) || !crossesByRoute v d

def checkTwins (v : ArmView) : Option Nat :=
  v.ds.findSome? fun d => if twinShared v d then some (descRefusal v.g 6 d (rsvB d.w)) else none

/-- Slot steps of a thread from an entry to its ejection; what lies in other instances is a free value (log 31). -/
def stepsFrom (v : ArmView) (x : PlacedRsv) : Nat → Nat
  | 0 => 0
  | fuel + 1 =>
    if x.out ≤ 3 then
      let h := hopSlots v.g x.r x.out
      match entryAt v x.e.id (v.g.neighbour x.r x.out) (facing x.out) (x.e.start + h) with
      | some y => h + stepsFrom v y fuel
      | none => h
    else if x.out = 6 then 1 + Config.farSteps x.e.id v.m.fresh
    else 1

/-- h + 16c of a thread of a descriptor. -/
def threadSteps (v : ArmView) (d : C0Desc) (id : Nat) : Nat :=
  let src := if d.source then some d.l else localNi v d.peer
  match src with
  | some l =>
    match v.es.find? fun x => x.e.id == id && x.r == v.g.niRouter l && x.e.inPort == v.g.niPort l with
    | some x => stepsFrom v x 300
    | none => Config.farSteps id v.m.fresh
  | none => Config.farSteps id v.m.fresh

/-- Flits per start and starts per period of a thread, as its entries at the descriptor's own NI tell them. -/
def threadShape (v : ArmView) (d : C0Desc) (id : Nat) : Nat × Nat :=
  let xs := v.es.filter fun x => x.e.id == id && x.r == v.g.niRouter d.l &&
    (if d.source then x.e.inPort == v.g.niPort d.l else x.out == v.g.niPort d.l)
  ((xs.head?.map (·.e.len)).getD 1, max 1 xs.length)

/-- D_X of R181. -/
def threadD (v : ArmView) (d : C0Desc) (id : Nat) : Nat := threadSteps v d id + (threadShape v d id).1

/-- |D_A − D_B|, and the fewer starts of the two threads; a flow without a twin has no difference. -/
def twinSkew (v : ArmView) (d : C0Desc) : Nat × Nat :=
  let a := threadD v d (rsvA d.w)
  let ka := (threadShape v d (rsvA d.w)).2
  if rsvB d.w = 0 then (0, ka)
  else
    let b := threadD v d (rsvB d.w)
    ((a - b) + (b - a), min ka (threadShape v d (rsvB d.w)).2)

/-- TWIN_SKEW. -/
def checkSkew (v : ArmView) : Option Nat :=
  v.ds.findSome? fun d =>
    let (s, k) := twinSkew v d
    if !d.source && 2 * (v.p / k) < s then some (descRefusal v.g 7 d 0) else none

/-- The port of a Z router an entry crosses. -/
def crossing (v : ArmView) (x : PlacedRsv) : Option Nat :=
  if x.out = 6 || x.e.inPort = 6 then (v.g.zAt x.r).map (·.1) else none

/-- XING_CLASS0 of the far end of port p, as its last PARAM told it; 1 where none was heard (R388). -/
def farXing (m : Mach) (p : Nat) : Bool := ((m.port p).peer.map (·.xingClass0)).getD true

/-- XING_NOT_CLASS0: at this end, or at the far end, whose difference the commit reports (R388; DEDUCED, log 50). -/
def checkXing (v : ArmView) : Option Nat :=
  v.es.findSome? fun x => match crossing v x with
    | some p => if v.m.reg v.g (key 0x3003 (p + 1)) = 0 || !farXing v.m p then some (rsvRefusal 9 x) else none
    | none => none

/-- The digest of a list of pairs (R192). -/
def digestOf (ps : List (Nat × Nat)) : BitVec 32 := BitVec.ofNat 32 (crc32c (if ps.isEmpty then [] else Config.digestBytes ps))

/-- (RSV_ID, sending slot) on port p, of entries that send on it, or that receive from it: there the slot is
START − XING_DELAY − 1. -/
def xingPairs (v : ArmView) (p : Nat) (recv : Bool) : List (Nat × Nat) :=
  let delay := xingDelay v.g v.m p + 1
  v.es.filterMap fun x =>
    if (v.g.zAt x.r).map (·.1) ≠ some p then none
    else if recv then (if x.e.inPort = 6 then some (x.e.id, (x.e.start + delay * v.p - delay) % max v.p 1) else none)
    else if x.out = 6 then some (x.e.id, x.e.start) else none

/-- XING_MISMATCH: the digest a neighbour answered differs from the own list as receiver. DEDUCED (log 186): where there is no
neighbour, nothing is placed on its side. -/
def checkDigest (v : ArmView) : Option Nat :=
  v.g.ports.findSome? fun q =>
    if (if (v.m.port q.p).link = .up then (v.m.port q.p).digest.getD (digestOf []) else digestOf []) =
      digestOf (xingPairs v q.p true) then none
    else some (prkRefusal 8 (v.g.zRouter q.p 0) 6 0)

/-- The first refusal of ARM in R190's order, up to XING_NOT_CLASS0. -/
def armRefusal (v : ArmView) : Option Nat :=
  if v.m.prk.st = .armed || v.m.prk.st = .activeArmed then some (prkRefusal 0x0E 0 0 0)
  else if v.m.time.st ≠ .locked then some (prkRefusal 0x0B 0 0 0)
  else [checkEntries, checkOverlap, checkCap, checkClock, checkChains, checkEnds, checkReverse, checkTwins, checkSkew,
    checkXing].findSome? fun f => f v

/-! ### ARM -/

def armingLead : Nat := 500000

/-- The smallest multiple of l at or above t. -/
def nextMultiple (l t : Nat) : Nat := ceilDiv t (max l 1) * max l 1

/-- The boundary period of R193. -/
def armLcm (m : Mach) (p : Nat) : Nat := if m.prk.period = 0 then p else Nat.lcm m.prk.period p

/-- The activation slot and whether it was moved later; none where strict mode refuses (R193). -/
def activationSlot (g : Gen) (m : Mach) (p : Nat) : Option (Nat × Bool) :=
  let t := ceilDiv (m.reg g (key 0x3100 4)) 32768
  let l := armLcm m p
  let a := nextMultiple l t
  if a < m.time.sc + armingLead then
    (if m.reg g (key 0x3100 5) = 1 then none else some (nextMultiple l (m.time.sc + armingLead), true))
  else some (a, false)

/-- Fields marked Shuttle of a descriptor (R169, R170, R178-R181). -/
def withShuttleFields (v : ArmView) (d : C0Desc) : Nat :=
  if d.source then
    let bound (id : Nat) : Nat := if id = 0 then 0 else
      let (n, k) := threadShape v d id
      ceilDiv v.p k + threadSteps v d id + (n - 1) + 4
    let span (id : Nat) : Nat := if id = 0 then 0 else threadSteps v d id - 1 + ((threadShape v d id).1 - 1)
    let w := setFld d.w 79 64 (min 65535 (max (bound (rsvA d.w)) (bound (rsvB d.w))))
    setFld (setFld w 63 48 (min 65535 (span (rsvA d.w)))) 47 32 (min 65535 (span (rsvB d.w)))
  else
    let (s, k) := twinSkew v d
    setFld d.w 79 64 (min 65535 (s + ceilDiv v.p k + 8))

def C0Desc.key (d : C0Desc) : Nat := Machine.key ((if d.source then 0x3400 else 0x3500) + d.l) d.j

/-- Wake what the armed bank holds in P0 and ACTIVE (R168, R190). -/
def takeHolds (g : Gen) (m : Mach) : Mach :=
  let m := g.doms.foldl (fun m d => if d.d ≠ 0 && c0Pinned g m d.d then beginWake g m d.d else m) m
  g.ports.foldl (fun m q => if linkReserved g m q.p then linkWake g m q.p else m) m

/-- Enter ARMED or ACTIVE_ARMED with a bank, a period and a slot. -/
def armBank (g : Gen) (m : Mach) (bank : Tab Nat) (p a : Nat) : Mach :=
  let m := (m.setReg (key 0x3100 7) (a * 32768)).setReg (key 0x3100 8) 0
  let st : PrkState := if m.prk.st = .active then .activeArmed else .armed
  takeHolds g { m with prk := { m.prk with st := st, armed := bank, armedPeriod := p, slot := a } }

/-- The crossing digest of the shadow bank leaves on port p (R192). -/
def sendDigest (g : Gen) (m : Mach) (p : Nat) : Mach :=
  m.sideband g p 0x05 (toBytes (digestOf (xingPairs (armView g m) p false)).toNat 4)

/-- Ask every neighbour for its digest with the own one (R192). -/
def askDigests (g : Gen) (m : Mach) : Mach :=
  (g.ports.filter fun q => (m.port q.p).link == .up).foldl
    (fun m q => (sendDigest g m q.p).updP q.p fun x => { x with digest := none, asked := true }) m

/-- A neighbour that is there has not yet answered. -/
def awaitsDigest (g : Gen) (m : Mach) : Bool := g.ports.any fun q => (m.port q.p).link == .up && (m.port q.p).asked

/-- The ARM ends in a refusal, which PRK_REFUSAL reports. -/
def refuseArm (m : Mach) (w : Nat) : Mach := { m with prk := { m.prk with asking := false } }.setReg (key 0x3100 8) w

/-- The rest of an ARM once every neighbour has answered (R190-R193). DESIGN CHOICE (log 172): what was written to the shadow bank
meanwhile is judged and armed with it. -/
def finishArm (g : Gen) (m : Mach) : Mach :=
  let v := armView g m
  match (armRefusal v).orElse fun _ => checkDigest v with
  | some w => refuseArm m w
  | none =>
    match activationSlot g m v.p with
    | none => refuseArm m (prkRefusal 0x0C 0 0 0)
    | some (a, late) =>
      let m := if late then m.orReg g (key 0x3100 6) 1 else m
      let m := v.ds.foldl (fun m d => m.setReg d.key (withShuttleFields v d)) m
      armBank g { m with fresh := m.fresh + 1, prk := { m.prk with asking := false } } (shadowBank m) v.p a

/-- PRICKING_COMMIT ARM (R190-R193): the checks up to XING_NOT_CLASS0, then the exchange of digests. -/
def armCmd (g : Gen) (m : Mach) : Mach :=
  match armRefusal (armView g m) with
  | some w => refuseArm m w
  | none =>
    let m := askDigests g { m with prk := { m.prk with asking := true } }
    if awaitsDigest g m then m else finishArm g m

/-- ARM: the command is accepted whatever its outcome, which PRK_REFUSAL and PRK_STATE report (R476). -/
def arm (g : Gen) (m : Mach) : Mach := withStatus (armCmd g m, mgOk)
def execArm (s : State) := s.run arm

/-! ### Activation -/

/-- The written fields of a descriptor, without those the Shuttle computes. -/
def writtenFields (d : C0Desc) : Nat := if d.source then d.w / 2 ^ 80 else d.w / 2 ^ 80 % 2 ^ 24 + fld d.w 125 123 * 2 ^ 24 + d.peer * 2 ^ 32

/-- The written fields of the pair a descriptor belongs to (R182): its own, and those of the flow's other end where bank `ds`
of this instance holds it (DEDUCED, log 47). -/
def pairFields (g : Gen) (m : Mach) (ds : List C0Desc) (d : C0Desc) : List Nat :=
  let f := BitVec.ofNat 16 d.peer
  let far := ds.filter fun y => fidNode f = m.node g && y.l == fidLocal f && y.source != d.source && y.vn == d.vn &&
    y.peer == (m.fid g d.l).toNat
  writtenFields d :: far.map writtenFields

/-- The descriptors of one end at NI l. -/
def endDescs (ds : List C0Desc) (l : Nat) (source : Bool) : List C0Desc := ds.filter fun d => d.l == l && d.source == source

/-- The thread queues of NI l after the switch (R182, R195), from bank `olds` to bank `news`. DEDUCED (log 174): of a packet whose
other copy has been injected only a copy waits, which a removed flow discards without completion and count. -/
def switchSource (g : Gen) (m : Mach) (l : Nat) (olds news : List C0Desc) : Mach :=
  let old := endDescs olds l true
  let new := endDescs news l true
  let t := (m.ni l).tx
  let m := m.updTx l fun t => { t with c0q := [], c0seq := [], c0rsp := [] }
  old.foldl (fun m d =>
    let a := t.c0q.get? (2 * d.j)
    let b := t.c0q.get? (2 * d.j + 1)
    let whole := a.isSome && (b.isSome || rsvB d.w = 0)
    let rsps := t.c0rsp.getD d.j []
    match new.find? fun n => n.peer == d.peer && n.vn == d.vn with
    | some n =>
      let same := pairFields g m news n == pairFields g m olds d
      let p := (a.orElse fun _ => b).map fun p => if same then p else { p with hdr := { p.hdr with seq := 0 } }
      let seq := if same then t.c0seq.getD d.j 0 else p.isSome.toNat
      m.updTx l fun x =>
        let q := match p with
          | none => x.c0q
          | some p =>
            let q := if a.isSome || rsvB n.w = 0 then x.c0q.put (2 * n.j) p else x.c0q
            if rsvB n.w ≠ 0 && (b.isSome || whole) then q.put (2 * n.j + 1) p else q
        { x with c0q := q, c0seq := x.c0seq.put n.j seq, c0rsp := if rsps.isEmpty then x.c0rsp else x.c0rsp.put n.j rsps }
    | none =>
      let lost := (if whole then a.toList else []) ++ rsps
      lost.foldl (fun m p =>
        if p.hdr.np then
          match (m.ni l).tab.tags.get? p.hdr.tag.toNat with
          | some e =>
            let m := freeTag m l p.hdr.tag.toNat
            if e.fired then m else tagOutcome g m l e (ownRsp g m l p.hdr stStopped) false
          | none => m
        else (m.addWrap g (c0Key l 1) 1).cntN g l 0x1C) m) m

/-- The destination flows of NI l after the switch (R182): identical ones keep their state, others begin at 0. -/
def switchDest (g : Gen) (m : Mach) (l : Nat) (olds news : List C0Desc) : Mach :=
  let t := (m.ni l).tab.c0dst
  let kept : Tab C0Dst := (endDescs news l false).foldl (fun acc n =>
    match ((endDescs olds l false).find? fun d => pairFields g m olds d == pairFields g m news n).bind fun d => t.get? d.j with
    | some x => acc.put n.j x
    | none => acc) []
  m.updTab l fun t => { t with c0dst := kept }

/-- The longest free run of every link in the new bank (R212). -/
def newRuns (g : Gen) (m : Mach) : Mach :=
  let (b, per) := (m.prk.active, m.prk.period)
  let runOf (es : List Rsv) (shift : Nat) : Nat :=
    if es.isEmpty then 5 else longestRun per fun s => es.any fun e => e.covers per (s + shift)
  let m := g.routers.foldl (fun m r => (g.portsOf r).foldl (fun m p =>
    let n := runOf (bankEntries b r p) 0
    m.updOut r p fun o => { o with maxRun := n, noFitLogged := false }) m) m
  g.nis.foldl (fun m x =>
    let es := ((List.range 7).flatMap fun p => bankEntries b (g.niRouter x.loc) p).filter fun e => e.inPort == x.port
    let n := runOf es 1
    m.updTx x.loc fun t => { t with maxRun := n, noFitLogged := false }) m

/-- The new bank is active everywhere and copied into the shadow bank (R189, R194, R195). -/
def activate (g : Gen) (m : Mach) : Mach :=
  let old := descsOf m.prk.active
  let bank := m.prk.armed
  let new := descsOf bank
  let idle := bankEmpty bank
  let per := if idle then 0 else m.prk.armedPeriod
  let m := { m with prk := { m.prk with st := if idle then .idle else .active, active := bank, period := per, armed := [],
                                        armedPeriod := 0, stopping := m.prk.stopping && !idle } }
  let m := { m with regs := bank.foldl (fun t (k, w) => t.put k w) (m.regs.filter fun (k, _) => !isPrkKey k) }
  let m := m.setReg (key 0x3100 3) per
  let m := g.nis.foldl (fun m n => switchDest g (switchSource g m n.loc old new) n.loc old new) m
  alignSc (newRuns g m)

/-! ### DISARM and the digest exchange -/

/-- PRICKING_COMMIT DISARM (R196): after A nothing but the activation, which is due. An ARM that waits for digests is withdrawn. -/
def disarmCmd (g : Gen) (m : Mach) : Mach :=
  let p := { m.prk with asking := false }
  match p.st with
  | .idle | .active => { m with prk := p }
  | st =>
    if p.slot ≤ m.time.sc then activate g m
    else { m with prk := { p with st := if st = .armed then .idle else .active, armed := [], armedPeriod := 0, stopping := false } }

/-- PRK_DIGEST (R192): the answer to the own digest, or the digest of a neighbour, which is answered with the current shadow digest.
It is compared with the own list when the ARM that asked for it ends. -/
def prkDigest (p : Nat) (d : BitVec 32) (g : Gen) (m : Mach) : Mach :=
  let asked := (m.port p).asked
  let m := m.updP p fun x => { x with digest := some d, asked := false }
  let m := if asked then m else sendDigest g m p
  if m.prk.asking && !awaitsDigest g m then finishArm g m else m

def execPrkDigest (r : SbRx) (d : BitVec 32) (s : State) :=
  s.runIf (s.gen.hasPort r.p) (sbTake 0x05 (toBytes d.toNat 4) r.crc (prkDigest r.p d))

/-! ### STOP and START of the pricking function (R156, R198) -/

/-- STOP: an empty bank is armed at the next reachable boundary; an armed change is dropped for it. The answer says whether
the function is STOPPED already. DESIGN CHOICE (log 175): an empty bank has no period, so the boundary is one of the active period. -/
def stopPricking (g : Gen) (m : Mach) : Mach × Bool :=
  let m := { m with prk := { m.prk with asking := false } }
  match m.prk.st with
  | .idle => (m, true)
  | .armed => ({ m with prk := { m.prk with st := .idle, armed := [], armedPeriod := 0 } }, true)
  | _ =>
    let p := m.prk.period
    let a := nextMultiple p (m.time.sc + armingLead)
    let m := { m with prk := { m.prk with st := .active, stopping := true } }
    (armBank g m [] p a, false)

end Sys2Proof.Machine
end

