-- ==== Sys2Proof/Machine/Function.lean ====
section
/-! DEFINITION. Functions and their states: STOP, START, CMD_STATUS and the checks at START (R474-R479), what each kind of
unit does as it stops and starts (R115, R139-R142, R198, R266, R267, R344, R345, R388, R391, R441), and the rows that end
these passages. -/

namespace Sys2Proof.Machine

open Sys2Proof

/-! ### CMD_STATUS and START_REFUSAL -/

def cmdStatusKey : Nat := key 0xF001 1
def startRefusalKey : Nat := key 0xF001 2

/-- CMD_STATUS (R477). -/
def setCmdStatus (m : Mach) (busy : Bool) (cmd result fid : Nat) : Mach :=
  m.setReg cmdStatusKey (busy.toNat * 2 ^ 31 + cmd * 2 ^ 24 + result * 2 ^ 16 + fid)

def setRefusal (m : Mach) (code entry : Nat) : Mach := m.setReg startRefusalKey (code * 2 ^ 24 + entry % 65536)

/-! ### Links that return to service (R441) -/

/-- The other end of the on-die link at port p of router r has passed through STOPPED and STARTING, or is no unit of its own. -/
def farAgain (g : Gen) (m : Mach) (r p : Nat) : Bool :=
  if p = 6 then true
  else if p = 4 || p = 5 then (m.ni ((g.niAt r p).getD 0)).rx.again
  else (m.outp g (g.neighbour r p) (facing p)).again

/-- Bring a dead link back: PORT_DEAD clears, both directions start as after a reset. -/
def reviveEnd (g : Gen) (m : Mach) : LinkEnd → Mach
  | .rtr r p =>
    let k := key (logR r) 9
    let m := m.updOut r p fun o => { o with dead := false, again := false }
    reopenLink ((m.setReg k (setBit (m.reg g k) p false)).updIn r p fun i => { i with resets := 0 }) (.rtr r p)
  | .ni l => reopenLink (m.updRx l fun x => { x with dead := false, again := false, resets := 0 }) (.ni l)

/-- Router r passes through STARTING: its dead links whose other end has done so too return to service. -/
def reviveRouter (g : Gen) (m : Mach) (r : Nat) : Mach :=
  (g.portsOf r).foldl (fun m p =>
    if !(m.outp g r p).dead then m
    else
      let m := m.updOut r p fun o => { o with again := true }
      if farAgain g m r p then (linkEnds g (.rtr r p)).foldl (reviveEnd g) m else m) m

/-- NI l passes through STARTING. -/
def reviveNi (g : Gen) (m : Mach) (l : Nat) : Mach :=
  if !(m.ni l).rx.dead then m
  else
    let m := m.updRx l fun x => { x with again := true }
    if (m.outp g (g.niRouter l) (g.niPort l)).again then (linkEnds g (.ni l)).foldl (reviveEnd g) m else m

/-! ### Stopping a unit -/

/-- STOP of an NI takes effect (R266, R267): the requests that wait in its ejection FIFOs, not yet presented, are consumed
as those that arrive from now on. -/
def stopNi (g : Gen) (m : Mach) (l : Nat) : Mach :=
  let m := (m.updN l fun x => { x with fs := .stopping, stopLogged := false }).startTimer (.drain (0x3000 + l)) (2 * npTimeout g m l)
  let asks (e : EjPkt) : Bool := !e.drop && e.req.isNone && !isResponse e.pkt.hdr.c
  let m := [0, 1, 2, 3, 4].foldl (fun m v =>
    let q := (m.ni l).ep.eject.getD v []
    if q.isEmpty then m
    else (q.filter asks).foldl (fun m e => stopDiscard g (ejectCredits m l e.pkt e.cred) l e.pkt.hdr)
      (m.updEp l fun e => { e with eject := e.eject.put v (q.filter fun e => !asks e) })) m
  mWatch g (m.stopTimer (.mEject l)) l

/-- A RUNNING unit enters STOPPING, and its drain timeout begins (R139, R140, R145, R266, R345, R350, R391); an engine with
nothing to run is STOPPED at once. -/
def stopUnit (g : Gen) (m : Mach) (fid : Nat) : Mach :=
  let n := fid % 4096
  let m := wakeUnit g m fid
  if m.fsOf g fid ≠ .running then m
  else match fid / 4096 with
    | 1 => (m.updR n fun r => { r with fs := .stopping }).startTimer (.drain fid) (usUnits (m.reg g (key 0x2000 3)))
    | 3 => stopNi g m n
    | 4 => engineDrained g ((m.updE n fun e => { e with fs := .stopping }).startTimer (.drain fid) (usUnits (m.reg g (engKey n 0x0B)))) n
    | 5 => m.updP n fun p => { p with fs := .stopping }
    | 6 => (stopPricking g m).1
    | _ => m

/-! ### Checks at START (R344, R478) -/

/-- Put the accepted RWS values of an owner into force (R521). -/
def applyOwner (g : Gen) (m : Mach) (o : Owner) : Mach := m.apply fun k => ownerOf g k == some o

/-- A VALID descriptor that R344 refuses; its two accumulators are 256 B each (R336). -/
def descBad (w : Nat) : Bool :=
  let x := Desc.ofNat w
  x.valid && (!reduceOk x.op x.lane || x.expect = 0 || 0x7800 < x.acc + 512 || 0x8000 < x.res + 64 * x.flits ||
    (!x.isRoot && x.parent == 0xFFFF))

/-- The descriptor that fails R344, or 0 for an unnumbered engine (R298), with the values START would put into force. -/
def engineRefusal (g : Gen) (m : Mach) (i : Nat) : Option Nat :=
  if 2047 < m.reg g (key 0x6000 1) + i then some 0
  else (List.range 16).find? fun d => descBad (m.reg g (engKey i (0x20 + d)))

/-- NODE_ROUTE of a node, as accepted. -/
def routeEntry (g : Gen) (m : Mach) (n : Nat) : Nat := m.reg g (key (0x2100 + n / 256) (n % 256))

/-- Check 0x01 for a node. -/
def routeBad (g : Gen) (w : Nat) : Bool :=
  bit w 15 && ((routePorts w).any (fun p => !g.hasPort p) || (bit w 11 && fld w 10 8 == fld w 14 12))

/-- R101 is broken for a node, as far as PORT_DIR tells. DEDUCED (log 33): no packet for a node enters through a port that
the node's own entry names, so a port is not tested against itself. -/
def levelBad (g : Gen) (m : Mach) (n w : Nat) : Bool :=
  bit w 15 && g.ports.any fun a =>
    m.portDir g a.p == 1 && (peerNode g m a.p).toNat != n &&
      (routePorts w).any fun b => b != a.p && m.portDir g b == 1

/-- The first failing check of the routing function. -/
def routingRefusal (g : Gen) (m : Mach) : Option (Nat × Nat) :=
  let nodes := (List.range 512).filter fun n => n ≠ m.node g
  ((nodes.find? fun n => routeBad g (routeEntry g m n)).map fun n => (1, n)).orElse fun _ =>
    (nodes.find? fun n => levelBad g m n (routeEntry g m n)).map fun n => (2, n)

/-- Groups with ENABLE = 1 whose tree fails R131 are disabled and counted in MCAST_DISABLED. -/
def checkGroups (g : Gen) (m : Mach) : Mach :=
  (List.range 1024).foldl (fun m n =>
    if m.groupEnabled g n && !treeOk g m n then (groupWrite g m n false).1.addSat g (key 0x1100 8) 1 else m) m

/-- An unassigned identity (R26). -/
def unassigned (g : Gen) (m : Mach) : Bool := 511 < m.node g || 15 < m.package g

/-! ### Starting a unit -/

/-- Fabric time is LOCKED but for the FAULT (R156). DEDUCED (log 34): a master that has used an edge; a follower whose last 8
exchanges were within 0.25 ns. -/
def timeLocked (g : Gen) (m : Mach) : Bool :=
  if isMaster g m then m.time.lastPps.isSome else m.time.upstream.isSome && 8 ≤ m.time.good

/-- FAULT is left by STOP and START of the pricking function with time LOCKED again (R156, R158). -/
def leaveTimeFault (g : Gen) (m : Mach) : Mach :=
  if m.time.st ≠ .fault || m.time.conflict || !timeLocked g m then m
  else alignSc ((m.updT fun t => { t with st := .locked }).startTimer .exchange (usUnits 3000))

/-- An engine whose checks pass starts (R344). -/
def startEngine (g : Gen) (m : Mach) (i : Nat) : Mach :=
  let m := applyOwner g (applyOwner g m (.func (0x4000 + i))) .engines
  let pen := m.reg g (key 0x6000 1) + i
  let m := m.updE i fun e => { e with fs := .running, pen := some pen, ev := [], evSat := false, coll := [] }
  let m := m.stopTimers fun t => match t with
    | .coll j _ _ => j == i
    | _ => false
  if bit (engCtrl g m i) 0 then queueStart g m i (shuttleStart g m 0) else m

/-- PARAM goes out again (R99, R388). -/
def repeatParam (g : Gen) (m : Mach) (p : Nat) : Mach :=
  match (m.port p).link with
  | .up | .mismatch | .param => sendParam g m p
  | _ => m

/-- The domain whose DOMAIN_FREQ a router's or NI's pass through STARTING puts into force (R435). -/
def unitDomain (g : Gen) (fid : Nat) : Nat := if fid / 4096 = 1 then g.region (fid % 4096) else g.niDom (fid % 4096)

/-- DOMAIN_FREQ comes into force, but for a value below 2.0 GHz while the domain holds reservations (R168; DEDUCED, log 171). -/
def applyDomain (g : Gen) (m : Mach) (d : Nat) : Mach :=
  if c0Pinned g m d && m.reg g (domKey d 2) ≠ 2000 then m else applyOwner g m (.domain d)

/-- START of one unit: a STOPPED one enters STARTING with its new settings in force, a STOPPING one is RUNNING again with
nothing lost (R475). Engines and ports are RUNNING at once. The answer says whether a check refused it. -/
def startUnit (g : Gen) (m : Mach) (fid : Nat) : Mach × Bool :=
  let n := fid % 4096
  let m := wakeUnit g m fid
  let own (m : Mach) : Mach := applyDomain g (applyOwner g m (.func fid)) (unitDomain g fid)
  match fid / 4096, m.fsOf g fid with
  | 1, .stopped => ((reviveRouter g (own m) n).updR n fun r => { r with fs := .starting }, false)
  | 1, .stopping => ((m.updR n fun r => { r with fs := .running }).stopTimer (.drain fid), false)
  | 3, .stopped => ((reviveNi g (own m) n).updN n fun x => { x with fs := .starting }, false)
  | 3, .stopping => ((grantIngress (m.updN n fun x => { x with fs := .running }) n).stopTimer (.drain fid), false)
  | 4, .stopped =>
    match engineRefusal g m n with
    | some d => (setRefusal (recordFault g m n 0x0C 0 0 0 0 d) 3 n, true)
    | none => (startEngine g m n, false)
  | 4, .stopping => ((m.updE n fun e => { e with fs := .running }).stopTimer (.drain fid), false)
  | 5, .stopped => (repeatParam g ((own m).updP n fun p => { p with fs := .running }) n, false)
  | 5, .stopping => (m.updP n fun p => { p with fs := .running }, false)
  | 6, .stopped => (leaveTimeFault g (own m), false)
  | 6, .stopping => (disarmCmd g m, false)
  | _, _ => (m, false)

/-! ### The command in progress -/

/-- The groups of a function, in the order STOP takes them (R475). -/
def groupsOf (g : Gen) (fid : Nat) : List (List Nat) :=
  if fid / 4096 = 7 then [unitsOf g 4, unitsOf g 3, unitsOf g 5, unitsOf g 1] else [membersOf g fid]

/-- Begin a group: stop it, or start it and drop the units that a check refuses. -/
def beginGroup (g : Gen) (m : Mach) (sub : Nat) (grp : List Nat) : Mach × List Nat × Bool :=
  if sub = 1 then (grp.foldl (stopUnit g) m, grp, false)
  else grp.foldl (fun (m, left, bad) f =>
    let (m, r) := startUnit g m f
    (m, if r then left else left ++ [f], bad || r)) (m, [], false)

/-- Units of a group that have not reached the command's final state. -/
def unfinished (g : Gen) (m : Mach) (sub : Nat) (grp : List Nat) : List Nat :=
  grp.filter fun f => if sub = 1 then m.fsOf g f != .stopped else f / 4096 != 6 && m.fsOf g f != .running

/-- A STOP that came while a unit was STARTING takes effect when it runs (R475). -/
def lateStops (g : Gen) (m : Mach) (sub : Nat) (grp : List Nat) : Mach :=
  if sub = 1 then grp.foldl (fun m f => if m.fsOf g f = .running then stopUnit g m f else m) m else m

/-- A STOPPING router or NI whose drain timeout has passed: STOP no longer waits for it (R140, R267). -/
def timedOut (g : Gen) (m : Mach) (fid : Nat) : Bool :=
  (fid / 4096 = 1 || fid / 4096 = 3) && m.fsOf g fid == .stopping && (m.deadline (.drain fid)).isNone

/-- Take the command in progress as far as it goes: the next group begins when the one before it is done. -/
def settleLoop (g : Gen) : Nat → Mach → Mach
  | 0, m => m
  | fuel + 1, m =>
    match m.sh.job with
    | none => m
    | some j =>
      if j.sub ≠ 1 && j.sub ≠ 2 then m
      else match j.groups with
      | [] => setCmdStatus (m.updSh fun s => { s with job := none }) false j.sub j.result j.fid
      | grp :: rest =>
        let m := lateStops g m j.sub grp
        let late := if j.sub = 1 then grp.filter (timedOut g m) else []
        let left := (unfinished g m j.sub grp).filter fun f => !late.contains f
        let j := if late.isEmpty then j else { j with result := 1 }
        if !left.isEmpty then m.updSh fun s => { s with job := some { j with groups := left :: rest } }
        else match rest with
          | [] => settleLoop g fuel (m.updSh fun s => { s with job := some { j with groups := [] } })
          | nxt :: rest =>
            let (m, grp, bad) := beginGroup g m j.sub nxt
            settleLoop g fuel (m.updSh fun s => { s with job := some { j with groups := grp :: rest, result := if bad then 2 else j.result } })

def settleJob (g : Gen) (m : Mach) : Mach := settleLoop g 8 m

/-- Put a command on CMD_STATUS and begin its first group. -/
def beginJob (g : Gen) (m : Mach) (sub fid : Nat) (groups : List (List Nat)) : Mach :=
  let m := setCmdStatus m true sub 0 fid
  match groups with
  | [] => setCmdStatus m false sub 0 fid
  | grp :: rest =>
    let (m, grp, bad) := beginGroup g m sub grp
    settleJob g (m.updSh fun s => { s with job := some ⟨sub, fid, grp :: rest, if bad then 2 else 0⟩ })

/-- The drain timeout of a unit passes (R140, R267). -/
def drainedOut (g : Gen) (m : Mach) (fid : Nat) : Mach := m.onExpiry (.drain fid) (settleJob g)

/-- Whether a FUNC_ID may be named (R474). -/
def fidStatus (g : Gen) (fid : Nat) : Nat :=
  if fid / 4096 = 0 || 8 ≤ fid / 4096 then mgRange else if fidPresent g fid then mgOk else mgAbsent

/-- STOP (R475, R476). -/
def stopCmd (g : Gen) (m : Mach) (fid : Nat) : Mach × Nat :=
  if fidStatus g fid ≠ mgOk then (m, fidStatus g fid)
  else if m.sh.job.isSome then (m, mgBusy)
  else (beginJob g m 1 fid (groupsOf g fid), mgOk)

/-- A START that its checks refuse (R478). -/
def refuseStart (m : Mach) (fid code entry : Nat) : Mach := setCmdStatus (setRefusal m code entry) false 2 2 fid

/-- The check of START of a function as a whole: CODE and ENTRY of the first that fails (R478). -/
def startRefusal (g : Gen) (m : Mach) (fid : Nat) : Option (Nat × Nat) :=
  let kind := fid / 4096
  let anyStopped := (membersOf g fid).any fun f => m.fsOf g f == .stopped
  if !anyStopped || (kind ≠ 2 && kind ≠ 7) then none
  else if kind = 7 && unassigned g m then some (4, m.node g)
  else if (unitsOf g 1).any fun f => m.fsOf g f == .stopped then routingRefusal g m
  else none

/-- The routing function as a whole passes through STARTING: its values, PARAM to every neighbour, the groups' checks and the
tolerances (R388, R419, R478). -/
def startRouting (g : Gen) (m : Mach) : Mach :=
  let m := checkGroups g (applyOwner g m (.func 0x2000))
  computeTol g (g.ports.foldl (fun m q => repeatParam g m q.p) m)

/-- START resumes a halted start-up at its step (R26, R488): the command ends once routers, ports and NIs run. -/
def resumeStartup (g : Gen) (m : Mach) (fid : Nat) : Mach :=
  let m := (m.setReg (key 0x1200 2) 0).updSh fun s => { s with halted := false }
  (setCmdStatus m true 2 0 fid).updSh fun s => { s with job := some ⟨2, fid, [unitsOf g 1 ++ unitsOf g 5 ++ unitsOf g 3], 0⟩ }

/-- START (R475, R476, R478). -/
def startCmd (g : Gen) (m : Mach) (fid : Nat) : Mach × Nat :=
  if fidStatus g fid ≠ mgOk then (m, fidStatus g fid)
  else if m.sh.job.isSome then (m, mgBusy)
  else match startRefusal g m fid with
    | some (code, entry) => (refuseStart m fid code entry, mgOk)
    | none =>
      let m := m.setReg startRefusalKey 0
      if m.sh.halted && fid / 4096 = 7 then (resumeStartup g m fid, mgOk)
      else
        let routing := (fid / 4096 = 2 || fid / 4096 = 7) && (unitsOf g 1).any fun f => m.fsOf g f == .stopped
        let m := if routing then startRouting g m else m
        (beginJob g m 2 fid (groupsOf g fid).reverse, mgOk)

/-- STOP (R475). -/
def stop (fid : Nat) (g : Gen) (m : Mach) : Mach := withStatus (stopCmd g m fid)
def execStop (funcId : Nat) (s : State) := s.run (stop funcId)

/-- START (R475, R478). -/
def start (fid : Nat) (g : Gen) (m : Mach) : Mach := withStatus (startCmd g m fid)
def execStart (funcId : Nat) (s : State) := s.run (start funcId)

/-! ### Routers -/

/-- Nothing of VCs 0 to 11 is left in a router and no connection is open (R139). -/
def routerEmpty (g : Gen) (m : Mach) (r : Nat) : Bool :=
  let x := m.rt g r
  x.ins.all (fun (_, i) => i.vcs.all fun (v, q) => 12 ≤ v || q.isEmpty) && x.outs.all (fun (_, o) => o.q.isEmpty) &&
    x.conns.isEmpty && x.mids.isEmpty

/-- ROUTER_STOPPED (R139). -/
def routerStopped (r : Nat) (g : Gen) (m : Mach) : Mach :=
  if (m.rt g r).fs = .stopping && routerEmpty g m r then
    settleJob g ((m.updR r fun x => { x with fs := .stopped }).stopTimer (.drain (0x1000 + r)))
  else m

def execRouterStopped (r : Nat) (s : State) := s.runIf (s.gen.hasRouter r) (routerStopped r)

/-- DRAIN_TIMEOUT (R140): the router stays STOPPING. -/
def drainTimeout (r : Nat) (g : Gen) (m : Mach) : Mach :=
  drainedOut g m (0x1000 + r)

def execDrainTimeout (r : Nat) (s : State) := s.runIf (s.gen.hasRouter r) (drainTimeout r)

/-- Every withheld credit of a router leaves on its link (R36, R141). -/
def returnCredits (g : Gen) (m : Mach) (r : Nat) : Mach :=
  (g.portsOf r).foldl (fun m p =>
    let cs := (m.inp g r p).credits
    let m := m.updIn r p fun i => { i with credits := [] }
    if p = 6 || (m.outp g r p).dead then m
    else cs.foldl (fun m v => m.pushWire (farEnd g r p) (idleFlit (some v))) m) m

/-- ROUTER_RUNNING (R115, R141): the last withheld credits go back; after an allocator fault the router returns to iterative
mode only when its self-test passes. -/
def routerRunning (r : Nat) (selfTest : Bool) (g : Gen) (m : Mach) : Mach :=
  if (m.rt g r).fs ≠ .starting then m
  else
    let m := (returnCredits g m r).updR r fun x =>
      if x.allocFault && selfTest then { x with fs := .running, allocFault := false, want := some false } else { x with fs := .running }
    settleJob g (routeHeld g m r)

def execRouterRunning (r : Nat) (selfTest : Bool) (s : State) := s.runIf (s.gen.hasRouter r) (routerRunning r selfTest)

/-! ### NIs -/

/-- The conditions of R267. -/
def niEmpty (n : Ni) : Bool :=
  n.ep.ingress.all (fun (_, q) => q.isEmpty) && n.tx.held.isEmpty && n.tx.kept.isEmpty && n.tx.second.isEmpty &&
    n.tab.retx.isEmpty && n.tab.tags.isEmpty && pendingUsed n = 0

/-- NI_STOPPED (R267). -/
def niStopped (l : Nat) (g : Gen) (m : Mach) : Mach :=
  if (m.ni l).fs = .stopping && niEmpty (m.ni l) then
    settleJob g ((m.updN l fun x => { x with fs := .stopped }).stopTimer (.drain (0x3000 + l)))
  else m

def execNiStopped (l : Nat) (s : State) := s.runIf (s.gen.hasNi l) (niStopped l)

/-- NI_DRAIN_TIMEOUT (R267): the NI stays STOPPING. -/
def niDrainTimeout (l : Nat) (g : Gen) (m : Mach) : Mach :=
  drainedOut g m (0x3000 + l)

def execNiDrainTimeout (l : Nat) (s : State) := s.runIf (s.gen.hasNi l) (niDrainTimeout l)

/-- NI_RUNNING (R267): the withheld ingress credits are granted; a port that waited for it opens (R242). -/
def niRunning (l : Nat) (g : Gen) (m : Mach) : Mach :=
  if (m.ni l).fs ≠ .starting then m
  else settleJob g (tryOpen g (grantIngress (m.updN l fun x => { x with fs := .running }) l) l)

def execNiRunning (l : Nat) (s : State) := s.runIf (s.gen.hasNi l) (niRunning l)

/-! ### Ndesil ports -/

/-- Every held flit of VCs 0 to 11 has been acknowledged (R391). -/
def portEmpty (m : Mach) (p : Nat) : Bool :=
  allChans.all fun c => (m.chan p c).replay.isEmpty && (m.chan p c).txq.all fun (_, _, w) => 12 ≤ wfVc w

/-- PORT_STOPPED (R391). -/
def portStopped (p : Nat) (g : Gen) (m : Mach) : Mach :=
  if (m.port p).fs = .stopping && portEmpty m p then settleJob g (m.updP p fun x => { x with fs := .stopped }) else m

def execPortStopped (p : Nat) (s : State) := s.runIf (s.gen.hasPort p) (portStopped p)

/-! ### Engines and the pricking -/

/-- CONTEXT_END (R322, R345). -/
def contextEnd (i c : Nat) (g : Gen) (m : Mach) : Mach := settleJob g (freeCtx i c g m)
def execContextEnd (i c : Nat) (s : State) := s.runIf (s.gen.hasEngine i && c < 8) (contextEnd i c)

/-- ENG_DRAIN_TIMEOUT (R345). -/
def engDrainTimeout (i : Nat) (g : Gen) (m : Mach) : Mach := settleJob g (drainEngine i g m)
def execEngDrainTimeout (i : Nat) (s : State) := s.runIf (s.gen.hasEngine i) (engDrainTimeout i)

/-- DISARM (R196). One that withdraws the empty bank of a STOP leaves the STOP to arm it anew (log 35). -/
def disarm (g : Gen) (m : Mach) : Mach := withStatus (settleJob g (disarmCmd g m), mgOk)
def execDisarm (s : State) := s.run disarm

/-- PRICKING_ACTIVATION (R194): slot A comes; nothing where no bank is armed. -/
def prickingActivation (g : Gen) (m : Mach) : Mach :=
  if m.prk.st = .armed || m.prk.st = .activeArmed then
    settleJob g (activate g (m.pass (m.prk.slot - m.time.sc)))
  else m

def execPrickingActivation (s : State) := s.run prickingActivation

end Sys2Proof.Machine
end

