-- ==== Sys2Proof/Machine/EngineOps.lean ====
section
/-! DEFINITION. The instructions of the engines (R306-R314, R322-R331): issue, formats, and one meaning per instruction. -/

namespace Sys2Proof.Machine

open Sys2Proof

/-! ### Issue -/

/-- What an instruction does. -/
inductive Eff where
  /-- Done; the next instruction follows. -/
  | next (m : Mach)
  /-- Done; a jump, to a target that may lie outside the store. -/
  | goto (m : Mach) (pc : Int)
  /-- Issued; the PC moves on when what it waits for arrives. -/
  | hold (m : Mach)
  /-- Not issued: it waits and will be tried again. -/
  | wait (m : Mach)
  | fault (code info : Nat)

/-- Opcodes of R308. -/
def engOpKnown (op : Nat) : Bool :=
  between 0x00 0x14 op || between 0x18 0x1C op || between 0x20 0x23 op || between 0x28 0x2C op || between 0x30 0x32 op ||
  between 0x38 0x3D op

/-- Instruction word at an address of the store. -/
def Engine.fetch (e : Engine) (pc : Nat) : Nat := Mem.read e.imem (4 * pc) 4

/-- Latency of an instruction in fc (R308), but for a branch that is taken and a jump, which take 2. -/
def latencyOf (g : Gen) (m : Mach) (i w : Nat) : Nat :=
  let op := w / 2 ^ 26
  if op = 0x00 then (if fld w 5 0 = 0x0E || fld w 5 0 = 0x0F then 3 else 1)
  else if between 0x10 0x14 op || op = 0x22 || op = 0x30 || op = 0x3D then 2
  else if op = 0x20 then 1 + fld w 23 21
  else if op = 0x21 then (fld w 10 4 + 1) * (1 + fld w 23 21)
  else if op = 0x31 then 1 + (descOf g m i (fld w 25 22)).flits
  else 1

/-- A context that is ready but for the latency of its last instruction; one that has passed its watchdog waits for it. -/
def Ctx.canIssue (x : Ctx) : Bool := x.st == .ready && (x.wd == 0 || x.issued ≤ x.wd)

/-- Which context issues next, from `now` on, and when: in the first fc in which the issue slot is free and a context is
ready, the first ready one in rotation from the context after the one that issued last (R304). -/
def Engine.nextIssue (e : Engine) (now : Nat) : Option (Nat × Nat) :=
  let cs := e.ctxs.filter fun (_, x) => x.canIssue
  match cs with
  | [] => none
  | (_, x) :: rest =>
    let t := max (max now e.free) (rest.foldl (fun t (_, y) => min t y.rdyAt) x.rdyAt)
    let rdy : Tab Ctx := cs.filter fun (_, y) => y.rdyAt ≤ t
    (((List.range 8).map fun j => (e.lastCtx + 1 + j) % 8).find? fun c => rdy.has c).map fun c => (t, c)

/-- The context after an instruction that issued: WAIT, YIELD, MWAIT and FINISH restart its count (R346). -/
def countIssue (g : Gen) (m : Mach) (i c : Nat) (yields : Bool) (lat : Nat) : Mach :=
  let wd := m.reg g (engKey i 0x0A)
  (m.updE i fun e => { e with lastCtx := c, free := m.now + fcUnits 1 }).updCtx i c fun x =>
    let x := { x with rdyAt := m.now + fcUnits lat }
    if yields then { x with issued := 0, wd := wd } else { x with issued := x.issued + 1 }

/-- Apply what an instruction of context c at address pc does; a step beyond the store is a fault (R310). -/
def applyEff (g : Gen) (m : Mach) (i c pc : Nat) (yields : Bool) (lat : Nat) : Eff → Mach
  | .next m' =>
    if pc = 4095 then faultCtx g m i c 0x02 0
    else (countIssue g m' i c yields lat).updCtx i c fun x => { x with pc := pc + 1 }
  | .goto m' t =>
    if t < 0 || 4095 < t then faultCtx g m i c 0x02 0
    else (countIssue g m' i c yields 2).updCtx i c fun x => { x with pc := t.toNat }
  | .hold m' => if pc = 4095 then faultCtx g m i c 0x02 0 else countIssue g m' i c yields lat
  | .wait m' => m'
  | .fault code info => faultCtx g m i c code info

/-- An uncorrectable instruction fetch ends every context and stops the engine (R347). -/
def imemEcc (g : Gen) (m : Mach) (i c : Nat) : Mach :=
  let m := faultCtx g m i c 0x0A 0
  settleJob g (stopEngine g ((List.range 8).foldl (fun m k => killCtx g m i k) m) i)

/-- Issue one instruction of context c of engine i (R304, R306) in the fc of its turn: nothing where the turn is another
context's, or where the word at the PC does not have opcode `op`. A context with a failed MWR or MRDS faults first (R329), a reserved opcode faults whatever row is tried, and one that would
pass its watchdog waits for it (R346). -/
def issue (i c op : Nat) (yields : Bool) (run : Gen → Mach → Ctx → Nat → Eff) (g : Gen) (m0 : Mach) : Mach :=
  match m0.ctx? i c, (m0.eng i).nextIssue m0.now with
  | some x, some (t, k) =>
    let e := m0.eng i
    let m := m0.advanceTo t
    if k ≠ c || !(e.fs = .running || e.fs = .stopping) || !m0.awake (g.niDom (engNi g i)) then m0
    else if e.imemBad.contains x.pc then imemEcc g m i c
    else match x.memErr with
    | some st => faultCtx g m i c 0x07 st
    | none =>
      let w := e.fetch x.pc
      if !engOpKnown (w / 2 ^ 26) then faultCtx g m i c 0x01 0
      else if w / 2 ^ 26 ≠ op then m0
      else if x.wd ≠ 0 && x.wd ≤ x.issued && !yields then m.updCtx i c fun x => { x with issued := x.wd + 1 }
      else applyEff g m i c x.pc yields (latencyOf g m i w) (run g m x w)
  | _, _ => m0

/-! ### Registers and fields -/

def Ctx.get (x : Ctx) (n : Nat) : Nat := if n = 0 then 0 else (x.s.getD n 0).toNat

/-- Write a scalar register; s0 discards writes (R302). -/
def Mach.setS (m : Mach) (i c n v : Nat) : Mach :=
  if n = 0 then m else m.updCtx i c fun x => { x with s := x.s.set n (BitVec.ofNat 64 v) }

def Ctx.wide (x : Ctx) (n : Nat) : Payload := x.w.getD n 0

def Mach.setW (m : Mach) (i c n : Nat) (v : Payload) : Mach := m.updCtx i c fun x => { x with w := x.w.set n v }

/-- Every field named is zero. -/
def allZero (w : Nat) (fs : List (Nat × Nat)) : Bool := fs.all fun (hi, lo) => fld w hi lo == 0

/-- ILLEGAL_OP unless the reserved fields are zero (R306). -/
def reserving (w : Nat) (fs : List (Nat × Nat)) (e : Eff) : Eff := if allZero w fs then e else .fault 0x01 0

def fSD (w : Nat) : Nat := fld w 25 21
def fSA (w : Nat) : Nat := fld w 20 16
def fSB (w : Nat) : Nat := fld w 15 11
def fIMM (w : Nat) : Nat := fld w 15 0
def sextImm (w : Nat) : Nat := ofSigned 64 (toSigned 16 (fIMM w))

/-- A scratch access of n bytes at a, which must be a multiple of `al`: its fault, if any (R311). -/
def scratchFault (e : Engine) (a n al : Nat) (reads : Bool) : Option (Nat × Nat) :=
  if scratchTop < a + n then some (0x03, a)
  else if a % al ≠ 0 then some (0x04, a)
  else if reads && e.bad a n then some (0x08, a)
  else none

/-- Run with a scratch access checked. -/
def withScratch (f : Option (Nat × Nat)) (e : Eff) : Eff :=
  match f with
  | some (code, a) => .fault code a
  | none => e

/-! ### Scalar instructions -/

/-- ALU by FN (R309); reserved codes give none. -/
def aluFn (fn a b : Nat) : Option Nat :=
  let sh := b % 64
  match fn with
  | 0x00 => some (a + b)
  | 0x01 => some (a + 2 ^ 64 - b)
  | 0x02 => some (a &&& b)
  | 0x03 => some (a ||| b)
  | 0x04 => some (a ^^^ b)
  | 0x05 => some (a * 2 ^ sh)
  | 0x06 => some (a / 2 ^ sh)
  | 0x07 => some (ofSigned 64 (toSigned 64 a / 2 ^ sh))
  | 0x08 => some (if toSigned 64 a < toSigned 64 b then 1 else 0)
  | 0x09 => some (if a < b then 1 else 0)
  | 0x0A => some (if toSigned 64 b < toSigned 64 a then b else a)
  | 0x0B => some (if toSigned 64 a < toSigned 64 b then b else a)
  | 0x0C => some (min a b)
  | 0x0D => some (max a b)
  | 0x0E => some (a * b)
  | 0x0F => some (a * b / 2 ^ 64)
  | 0x10 => some (if a = 0 then 64 else 63 - a.log2)
  | 0x11 => some ((List.range 64).map fun j => (bit a j).toNat).sum
  | 0x12 => some (ofBytes (toBytes a 8).reverse)
  | _ => none

/-- ALU (R308, R309). -/
def execAlu (i c : Nat) (s : State) :=
  s.runIf (s.gen.hasEngine i && c < 8) (issue i c 0x00 false fun _ m x w =>
    reserving w [(10, 6)] (match aluFn (fld w 5 0) (x.get (fSA w)) (x.get (fSB w)) with
    | some v => .next (m.setS i c (fSD w) v)
    | none => .fault 0x01 0))

/-- An instruction of format I with a result. -/
def immOp (i c op : Nat) (f : Nat → Nat → Nat) : Gen → Mach → Mach :=
  issue i c op false fun _ m x w => .next (m.setS i c (fSD w) (f (x.get (fSA w)) w))

/-- ADDI (R308). -/
def execAddi (i c : Nat) (s : State) := s.runIf (s.gen.hasEngine i && c < 8) (immOp i c 0x01 fun a w => a + sextImm w)
/-- ANDI (R308). -/
def execAndi (i c : Nat) (s : State) := s.runIf (s.gen.hasEngine i && c < 8) (immOp i c 0x02 fun a w => a &&& fIMM w)
/-- ORI (R308). -/
def execOri (i c : Nat) (s : State) := s.runIf (s.gen.hasEngine i && c < 8) (immOp i c 0x03 fun a w => a ||| fIMM w)
/-- XORI (R308). -/
def execXori (i c : Nat) (s : State) := s.runIf (s.gen.hasEngine i && c < 8) (immOp i c 0x04 fun a w => a ^^^ fIMM w)

/-- SHI (R308). -/
def execShi (i c : Nat) (s : State) :=
  s.runIf (s.gen.hasEngine i && c < 8) (issue i c 0x05 false fun _ m x w =>
    reserving w [(15, 8)] (match ([0x05, 0x06, 0x07][fld w 7 6]?).bind fun fn => aluFn fn (x.get (fSA w)) (fld w 5 0) with
    | some v => .next (m.setS i c (fSD w) v)
    | none => .fault 0x01 0))

/-- LUI (R308). -/
def execLui (i c : Nat) (s : State) :=
  s.runIf (s.gen.hasEngine i && c < 8) (issue i c 0x06 false fun _ m _ w =>
    reserving w [(20, 16)] (.next (m.setS i c (fSD w) (sextImm w * 65536))))

/-- SLTI (R308). -/
def execSlti (i c : Nat) (s : State) :=
  s.runIf (s.gen.hasEngine i && c < 8)
    (immOp i c 0x07 fun a w => if toSigned 64 a < toSigned 16 (fIMM w) then 1 else 0)

/-- A branch (format B, R310). -/
def branchOp (i c op : Nat) (f : Nat → Nat → Bool) : Gen → Mach → Mach :=
  issue i c op false fun _ m x w =>
    reserving w [(15, 13)] (if f (x.get (fSD w)) (x.get (fSA w)) then .goto m (x.pc + toSigned 13 (fld w 12 0)) else .next m)

/-- BEQ (R308). -/
def execBeq (i c : Nat) (s : State) := s.runIf (s.gen.hasEngine i && c < 8) (branchOp i c 0x08 fun a b => a == b)
/-- BNE (R308). -/
def execBne (i c : Nat) (s : State) := s.runIf (s.gen.hasEngine i && c < 8) (branchOp i c 0x09 fun a b => a != b)
/-- BLT (R308). -/
def execBlt (i c : Nat) (s : State) :=
  s.runIf (s.gen.hasEngine i && c < 8) (branchOp i c 0x0A fun a b => toSigned 64 a < toSigned 64 b)
/-- BGE (R308). -/
def execBge (i c : Nat) (s : State) :=
  s.runIf (s.gen.hasEngine i && c < 8) (branchOp i c 0x0B fun a b => toSigned 64 b ≤ toSigned 64 a)
/-- BLTU (R308). -/
def execBltu (i c : Nat) (s : State) := s.runIf (s.gen.hasEngine i && c < 8) (branchOp i c 0x0C fun a b => a < b)
/-- BGEU (R308). -/
def execBgeu (i c : Nat) (s : State) := s.runIf (s.gen.hasEngine i && c < 8) (branchOp i c 0x0D fun a b => b ≤ a)

/-- JAL (R308). -/
def execJal (i c : Nat) (s : State) :=
  s.runIf (s.gen.hasEngine i && c < 8) (issue i c 0x0E false fun _ m x w =>
    reserving w [(20, 16), (15, 12)] (.goto (m.setS i c (fSD w) (x.pc + 1)) (fld w 11 0 : Nat)))

/-- JALR (R308). -/
def execJalr (i c : Nat) (s : State) :=
  s.runIf (s.gen.hasEngine i && c < 8) (issue i c 0x0F false fun _ m x w =>
    reserving w [(10, 0)] (.goto (m.setS i c (fSD w) (x.pc + 1)) (x.get (fSA w) % 4096 : Nat)))

/-! ### Scratch access -/

/-- Address of format M. -/
def addrM (x : Ctx) (w : Nat) : Nat := (x.get (fSA w) + fld w 13 0) % 2 ^ 64
def sizeM (w : Nat) : Nat := 2 ^ fld w 15 14

/-- A load, sign-extended or not. -/
def loadOp (i c op : Nat) (sext : Bool) : Gen → Mach → Mach :=
  issue i c op false fun _ m x w =>
    let a := addrM x w
    let n := sizeM w
    withScratch (scratchFault (m.eng i) a n n true)
      (let v := (m.eng i).load a n
       .next (m.setS i c (fSD w) (if sext then ofSigned 64 (toSigned (8 * n) v) else v)))

/-- LD (R308). -/
def execLd (i c : Nat) (s : State) := s.runIf (s.gen.hasEngine i && c < 8) (loadOp i c 0x10 false)
/-- LDS (R308). -/
def execLds (i c : Nat) (s : State) := s.runIf (s.gen.hasEngine i && c < 8) (loadOp i c 0x11 true)

/-- ST (R308). -/
def execSt (i c : Nat) (s : State) :=
  s.runIf (s.gen.hasEngine i && c < 8) (issue i c 0x12 false fun _ m x w =>
    let a := addrM x w
    let n := sizeM w
    withScratch (scratchFault (m.eng i) a n n false)
      (.next (m.updE i fun e => e.store a (toBytes (x.get (fSD w)) n) false)))

/-- WLD (R308). -/
def execWld (i c : Nat) (s : State) :=
  s.runIf (s.gen.hasEngine i && c < 8) (issue i c 0x13 false fun _ m x w =>
    let a := addrM x w
    reserving w [(25, 23), (15, 14)] (withScratch (scratchFault (m.eng i) a 64 64 true)
      (.next (m.setW i c (fld w 22 21) (BitVec.ofNat 512 ((m.eng i).load a 64))))))

/-- WST (R308). -/
def execWst (i c : Nat) (s : State) :=
  s.runIf (s.gen.hasEngine i && c < 8) (issue i c 0x14 false fun _ m x w =>
    let a := addrM x w
    reserving w [(25, 23), (15, 14)] (withScratch (scratchFault (m.eng i) a 64 64 false)
      (.next (m.updE i fun e => e.store a (toBytes (x.wide (fld w 22 21)).toNat 64) false))))

/-! ### Wide registers -/

/-- POS of format X. -/
def posX (w : Nat) : Nat := fld w 18 16 * 64 + fld w 15 10
def lenX (w : Nat) : Nat := fld w 9 4 + 1

/-- A bit field access, checked (R311). -/
def withField (w : Nat) (e : Eff) : Eff :=
  reserving w [(3, 0)] (if 511 < posX w + lenX w - 1 then .fault 0x05 0 else e)

/-- XTR (R308). -/
def execXtr (i c : Nat) (s : State) :=
  s.runIf (s.gen.hasEngine i && c < 8) (issue i c 0x18 false fun _ m x w =>
    withField w (.next (m.setS i c (fSD w) (fld (x.wide (fld w 20 19)).toNat (posX w + lenX w - 1) (posX w)))))

/-- SPL (R308). -/
def execSpl (i c : Nat) (s : State) :=
  s.runIf (s.gen.hasEngine i && c < 8) (issue i c 0x19 false fun _ m x w =>
    withField w (.next (m.setW i c (fld w 20 19)
      (BitVec.ofNat 512 (setFld (x.wide (fld w 20 19)).toNat (posX w + lenX w - 1) (posX w) (x.get (fSD w)))))))

/-- WGET (R308). -/
def execWget (i c : Nat) (s : State) :=
  s.runIf (s.gen.hasEngine i && c < 8) (issue i c 0x1A false fun _ m x w =>
    let k := x.get (fSA w) % 8
    reserving w [(10, 2)] (.next (m.setS i c (fSD w) (fld (x.wide (fld w 1 0)).toNat (64 * k + 63) (64 * k)))))

/-- WPUT (R308). -/
def execWput (i c : Nat) (s : State) :=
  s.runIf (s.gen.hasEngine i && c < 8) (issue i c 0x1B false fun _ m x w =>
    let k := x.get (fSA w) % 8
    reserving w [(25, 21), (10, 2)] (.next (m.setW i c (fld w 1 0)
      (BitVec.ofNat 512 (setFld (x.wide (fld w 1 0)).toNat (64 * k + 63) (64 * k) (x.get (fSB w)))))))

/-- WA and WB of format V. -/
def wideA (x : Ctx) (w : Nat) : Payload := x.wide (fld w 23 22)
def wideB (x : Ctx) (w : Nat) : Payload := x.wide (fld w 21 20)

/-- WOP (R308). -/
def execWop (i c : Nat) (s : State) :=
  s.runIf (s.gen.hasEngine i && c < 8) (issue i c 0x1C false fun _ m x w =>
    let a := wideA x w
    let b := wideB x w
    reserving w [(19, 16), (12, 0)] (match [a, 0, a &&& b, a ||| b, a ^^^ b][fld w 15 13]? with
    | some v => .next (m.setW i c (fld w 25 24) v)
    | none => .fault 0x01 0))

/-- WRED (R308, R338). -/
def execWred (i c : Nat) (s : State) :=
  s.runIf (s.gen.hasEngine i && c < 8) (issue i c 0x30 false fun _ m x w =>
    let op := fld w 15 13
    let lane := fld w 12 11
    reserving w [(19, 16), (10, 0)] (if !reduceOk op lane then .fault 0x01 0
    else .next (({ m with fresh := m.fresh + 32 } : Mach).setW i c (fld w 25 24) (reduceFlit op lane m.fresh (wideA x w) (wideB x w)))))

/-! ### Sending and receiving -/

/-- A send the engine refuses (R323; R53 for the rest of the header, log 25). -/
def sendRefused (g : Gen) (i : Nat) (h : Hdr) (ndata : Nat) : Bool :=
  h.k == 0 || isResponse h.c || isManagement h.c || isInternal h.c || (packetFault false h).isSome ||
    ndata != dataFlits h.c h.n || (g.kind (engNi g i) == 2 && h.v != 4)

/-- Data flits of a send. -/
def sendData (e : Engine) (a n : Nat) : List Payload := packBytes (e.loadBytes a (64 * n)) n

/-- The scratch a send reads. -/
def sendFault (e : Engine) (a n : Nat) : Option (Nat × Nat) := if n = 0 then none else scratchFault e a (64 * n) 64 true

/-- Packets of contexts in the send queue (R323). -/
def sendsQueued (e : Engine) : Nat := (e.sendQ.filter fun s => s.ctx < 8).length

/-- SEND (R323-R325). -/
def execSend (i c : Nat) (s : State) :=
  s.runIf (s.gen.hasEngine i && c < 8) (issue i c 0x20 false fun g m x w =>
    let h := Hdr.ofBits (x.wide (fld w 25 24))
    let n := fld w 23 21
    let a := x.get (fSA w)
    let e := m.eng i
    reserving w [(15, 0)] (if sendRefused g i h n then .fault 0x06 0
    else withScratch (sendFault e a n) (
      if 4 ≤ sendsQueued e || (h.np && 8 ≤ x.sends + x.rq.length) then .wait (m.updCtx i c fun x => { x with st := .waitSend })
      else
        let m := m.updE i fun e => { e with sendQ := e.sendQ ++ [⟨c, ⟨h, sendData e a n, false, []⟩, h.np⟩] }
        .next (if h.np then m.updCtx i c fun x => { x with sends := x.sends + 1 } else m))))

/-- SENDL (R326): as many copies as the send queue has room for; the rest follow when it has. -/
def execSendl (i c : Nat) (s : State) :=
  s.runIf (s.gen.hasEngine i && c < 8) (issue i c 0x21 false fun g m x w =>
    let h := Hdr.ofBits (x.wide (fld w 25 24))
    let n := fld w 23 21
    let a := x.get (fSA w)
    let b := x.get (fSB w)
    let count := fld w 10 4 + 1
    let e := m.eng i
    reserving w [(3, 0)] (if sendRefused g i h n || h.np || h.mcast || b % 2 ≠ 0 then .fault 0x06 0
    else withScratch (sendFault e a n) (withScratch (scratchFault e b (2 * count) 2 true) (
      let k := min (4 - sendsQueued e) (count - x.copies)
      let d := sendData e a n
      let new := (List.range k).map fun j =>
        (⟨c, ⟨{ h with dest := BitVec.ofNat 16 (e.load (b + 2 * (x.copies + j)) 2) }, d, false, []⟩, false⟩ : SendEnt)
      let m := m.updE i fun e => { e with sendQ := e.sendQ ++ new }
      if x.copies + k = count then .next (m.updCtx i c fun x => { x with copies := 0 })
      else .wait (m.updCtx i c fun x => { x with copies := x.copies + k, st := .waitSend })))))

/-- RECV (R325). -/
def execRecv (i c : Nat) (s : State) :=
  s.runIf (s.gen.hasEngine i && c < 8) (issue i c 0x22 false fun _ m x w =>
    reserving w [(13, 0)] (match x.rq with
    | [] => .next (m.setS i c (fSD w) (2 ^ 64 - 1))
    | p :: rest =>
      let a := x.get (fSA w)
      withScratch (if p.data.isEmpty then none else scratchFault (m.eng i) a (64 * p.data.length) 64 false) (
        let m := m.updE i fun e => e.store a (p.data.flatMap fun d => toBytes d.toNat 64) false
        let m := m.updCtx i c fun x => { x with rq := rest }
        .next ((m.setW i c (fld w 15 14) p.hdr.bits).setS i c (fSD w) p.hdr.n))))

/-- The completion FINISH sends (R322). -/
def finishPkt (g : Gen) (m : Mach) (i : Nat) (h : Hdr) (status : Nat) (bs : List Byte) : Pkt :=
  let f := m.fid g (engNi g i)
  if bs.isEmpty then rspPkt h f status
  else if bs.length ≤ 26 then rspInlinePkt h f status bs
  else rspDataPkt h f status bs

/-- FINISH (R322): the context ends; one that an invocation started answers it. -/
def execFinish (i c : Nat) (s : State) :=
  s.runIf (s.gen.hasEngine i && c < 8) (issue i c 0x23 true fun g m x w =>
    let a := x.get (fSD w)
    let n := x.get (fSA w)
    reserving w [(11, 0)] (if 256 < n then .fault 0x06 0
    else
      let done (m : Mach) : Mach :=
        let m := m.updE i fun e => { e with coll := e.coll.map fun (d, y) => (d, if y.root = some c then { y with root := none } else y) }
        m.updCtx i c fun x => { x with st := .ending, inv := none, roots := [] }
      match x.inv with
      | none => .goto (done m) x.pc
      | some h =>
        withScratch (if n = 0 then none else scratchFault (m.eng i) a n 1 true)
          (.goto (sendResponse (done m) (engNi g i) (finishPkt g m i h (fld w 15 12) ((m.eng i).loadBytes a n))) x.pc)))

/-! ### The memory port -/

/-- Outstanding memory operations of a context. -/
def Ctx.memOps (x : Ctx) : Nat := (x.ops.filter fun (k, _) => k < 8).length

/-- Issue a context's operation at the memory port, in the lowest free slot; with eight outstanding it waits. A port whose
agent is gone completes it at once (R268). -/
def memIssue (g : Gen) (m : Mach) (i c : Nat) (x : Ctx) (op : MemOp) (cmd addr : Nat) (be : BitVec 64) (data : List Payload)
    (out : Mach → Eff) : Eff :=
  let l := engNi g i
  match x.ops.lowestFree 0 8 with
  | none => .wait (m.updCtx i c fun x => { x with st := .waitMem })
  | some k =>
    let m := m.updCtx i c fun x => { x with ops := x.ops.put k op, order := x.order ++ [k] }
    if agentGone m l then out (memOpAnswer g m i c k stUnreachable [])
    else out (memPush m l (memReq g m l cmd addr (ctxTag (engSlot g i) c k) be data))

/-- Memory-port addresses are multiples of 64 (R328). -/
def withMemAddr (a : Nat) (e : Eff) : Eff := if a % 64 ≠ 0 then .fault 0x04 a else e

/-- MRD (R327, R329). -/
def execMrd (i c : Nat) (s : State) :=
  s.runIf (s.gen.hasEngine i && c < 8) (issue i c 0x28 false fun g m x w =>
    let a := x.get (fSA w)
    reserving w [(23, 21), (15, 0)] (withMemAddr a (
      if agentGone m (engNi g i) && (x.ops.lowestFree 0 8).isSome then .fault 0x07 stUnreachable
      else memIssue g m i c x (.wide (fld w 25 24)) 0x00 a 0 [] fun m =>
        .hold (m.updCtx i c fun x => { x with st := .waitData }))))

/-- MWR (R327, R329). -/
def execMwr (i c : Nat) (s : State) :=
  s.runIf (s.gen.hasEngine i && c < 8) (issue i c 0x29 false fun g m x w =>
    let a := x.get (fSA w)
    let be := x.get (fSB w)
    reserving w [(23, 21), (10, 0)] (withMemAddr a (
      memIssue g m i c x .write (if be = 2 ^ 64 - 1 then 0x20 else 0x22) a (if be = 2 ^ 64 - 1 then 0 else BitVec.ofNat 64 be)
        [x.wide (fld w 25 24)] .next)))

/-- MRDS (R327, R329). -/
def execMrds (i c : Nat) (s : State) :=
  s.runIf (s.gen.hasEngine i && c < 8) (issue i c 0x2B false fun g m x w =>
    let a := x.get (fSA w)
    let b := x.get (fSB w)
    reserving w [(25, 21), (10, 0)] (withMemAddr a (withScratch (scratchFault (m.eng i) b 64 64 false)
      (memIssue g m i c x (.scratch b) 0x00 a 0 [] .next))))

/-- MWAIT (R308). -/
def execMwait (i c : Nat) (s : State) :=
  s.runIf (s.gen.hasEngine i && c < 8) (issue i c 0x2C true fun _ m x w =>
    reserving w [(25, 16)] (if x.memOps ≤ fIMM w then .next m else .wait (m.updCtx i c fun x => { x with st := .waitMem })))

/-- MAMO (R330, R331): one operation at the engine's own atomic path; an operation that path refuses completes with
PROTOCOL, a fault (R329). -/
def execMamo (i c : Nat) (s : State) :=
  s.runIf (s.gen.hasEngine i && c < 8) (issue i c 0x2A false fun g m x w =>
    let size := fld w 10 8
    let aop := fld w 7 4
    let fmt := fld w 3 1
    let a := x.get (fSA w)
    let n := 2 ^ size
    let cmd := 0x40 + aop
    reserving w [(0, 0)] (if 3 < size || 0x0A < aop then .fault 0x01 0
    else if a % n ≠ 0 || !atomFmtOk cmd fmt size then .fault 0x07 stProtocol
    else
      let cas := aop = 2
      let b := x.get (fSB w) % 2 ^ (8 * n)
      let d := x.get (fSD w) % 2 ^ (8 * n)
      let h := { Hdr.zero with cmd := BitVec.ofNat 8 cmd, addr := BitVec.ofNat 56 a }
      match atomArrive g m i ⟨h, some (c, fSD w), cmd, n, if cas then d else b, if cas then b else 0, 0⟩ with
      | some m => .hold (m.updCtx i c fun x =>
          { x with st := .waitData, ops := x.ops.put 8 (.amo (fSD w)), order := x.order ++ [8] })
      | none => .wait (m.updCtx i c fun x => { x with st := .waitMem })))

/-! ### Collectives and events -/

/-- CONTRIB (R337). -/
def execContrib (i c : Nat) (s : State) :=
  s.runIf (s.gen.hasEngine i && c < 8) (issue i c 0x31 false fun g m x w =>
    let d := fld w 25 22
    let ds := descOf g m i d
    let y := collOf m i d
    let a := x.get (fSA w)
    let n := 64 * ds.flits
    let dist := seqDist y.local_ y.round
    reserving w [(21, 21), (15, 0)] (if !ds.valid then .fault 0x0B d
    else withScratch (scratchFault (m.eng i) a n 64 true) (
      if 2 ≤ dist && dist < 32768 then .wait (m.updCtx i c fun x => { x with st := .waitColl })
      else
        let bs := (m.eng i).loadBytes a n
        let m := updColl m i d fun y => { y with local_ := (y.local_ + 1) % 65536 }
        .next (if dist ≤ 1 then accumulate g m i d (dist == 1) bs else m.cntN g (engNi g i) 0x36))))

/-- COPEN (R342). -/
def execCopen (i c : Nat) (s : State) :=
  s.runIf (s.gen.hasEngine i && c < 8) (issue i c 0x32 false fun g m _ w =>
    let d := fld w 25 22
    reserving w [(21, 0)] (if !(descOf g m i d).valid then .fault 0x0B d
    else .next ((updColl m i d fun y => { y with root := some c }).updCtx i c fun x => { x with roots := x.roots ++ [d] })))

/-- WAIT (R314). -/
def execWait (i c : Nat) (s : State) :=
  s.runIf (s.gen.hasEngine i && c < 8) (issue i c 0x38 true fun _ m x w =>
    let ev := fSD w
    let n := fIMM w
    reserving w [(20, 16)] (if n = 0 || (ev = 31 && n ≠ 1) then .fault 0x01 0
    else if ev = 31 then
      .next (m.updCtx i c fun y => if x.flag then { y with flag := false } else { y with st := .waitEvent 31 1 })
    else
      let v := (m.eng i).ev.getD ev 0
      if n ≤ v then .next (m.updE i fun e => { e with ev := e.ev.put ev (v - n) })
      else .next (m.updCtx i c fun y => { y with st := .waitEvent ev n })))

/-- EVSIG (R308, R315). -/
def execEvsig (i c : Nat) (s : State) :=
  s.runIf (s.gen.hasEngine i && c < 8) (issue i c 0x39 false fun _ m _ w =>
    reserving w [(20, 16)] (if fSD w = 31 then .fault 0x01 0 else .next (signalEvent m i (fSD w) (fIMM w))))

/-- TIMER (R316). -/
def execTimer (i c : Nat) (s : State) :=
  s.runIf (s.gen.hasEngine i && c < 8) (issue i c 0x3A false fun _ m x w =>
    reserving w [(25, 21), (15, 0)] (.next (m.updCtx i c fun y => { y with timer := some (x.get (fSA w), m.now) })))

/-- YIELD (R308). -/
def execYield (i c : Nat) (s : State) :=
  s.runIf (s.gen.hasEngine i && c < 8) (issue i c 0x3B true fun _ m _ w => reserving w [(25, 0)] (.next m))

/-- The special values (R313). -/
def specialValue (g : Gen) (m : Mach) (i c : Nat) (x : Ctx) (sr : Nat) : Option Nat :=
  match sr with
  | 0 => some c
  | 1 => some (penOf g m i)
  | 2 => some (m.ns % 2 ^ 64)
  | 3 => some (x.ownerVport.toNat * 65536 + x.ownerSrc.toNat)
  | 4 => some x.entry
  | 5 => some x.memOps
  | 6 => some x.rq.length
  | 7 => some (m.eng i).aband
  | _ => none

/-- MFS (R313). -/
def execMfs (i c : Nat) (s : State) :=
  s.runIf (s.gen.hasEngine i && c < 8) (issue i c 0x3C false fun g m x w =>
    reserving w [(20, 5)] (match specialValue g m i c x (fld w 4 0) with
    | some v => .next (m.setS i c (fSD w) v)
    | none => .fault 0x01 0))

/-- MFC (R308, R498). -/
def execMfc (i c : Nat) (s : State) :=
  s.runIf (s.gen.hasEngine i && c < 8) (issue i c 0x3D false fun g m x w =>
    reserving w [(15, 0)] (.next (m.setS i c (fSD w) (m.reg g (key (0xA200 + engNi g i) (x.get (fSA w) % 64))))))

end Sys2Proof.Machine
end

