-- ==== Sys2Proof/Machine/Observe.lean ====
section
/-! DEFINITION. Observation and upkeep: hoops (R500-R502), logs and their clear (R348, R454, R455, R527), the Shuttle tick (R402,
R419, R441, R448, R451, R457), table repair (R446), aging (R513, R514), release of a quarantine (R451), denial clear (R368)
and the guard swap (R360, R370). -/

namespace Sys2Proof.Machine

open Sys2Proof

/-! ### Hoops -/

def hoopKey (sub : Nat) : Nat := key 0xA000 sub

/-- Set bits of HOOP_STATUS. -/
def hoopMark (g : Gen) (m : Mach) (w : Nat) : Mach := m.orReg g (hoopKey 1) w

/-- Copy `n` counters from subindex `a` of one index to subindex `b` of another. -/
def copyCounters (g : Gen) (m : Mach) (idx a idx' b n : Nat) : Mach :=
  (List.range n).foldl (fun m i => m.setReg (key idx' (b + i)) (m.reg g (key idx (a + i)))) m

/-- Every counter into its shadow (R501). -/
def copyShadows (g : Gen) (m : Mach) : Mach :=
  let m := g.routers.foldl (fun m r => copyCounters g m (0xA100 + r) 0 (0xA100 + r) 0x20 32) m
  let m := g.nis.foldl (fun m n =>
    let l := n.loc
    if l = 0 then m
    else
      let m := copyCounters g m (0xA200 + l) 0 (0xA200 + l) 0x40 64
      let m := if g.isInit l then copyCounters g m (0xA200 + l) 0x90 (0xA200 + l) 0xA0 16 else m
      copyCounters g m (0x3600 + l) 1 (0xA600 + l) 1 5) m
  let m := g.doms.foldl (fun m d => copyCounters g m (0x8100 + d.d) 8 (0xA400 + d.d) 8 5) m
  g.ports.foldl (fun m q => copyCounters g (copyCounters g m (0x7100 + q.p) 9 (0xA500 + q.p) 9 5) (0x7100 + q.p) 0x12 (0xA500 + q.p) 0x12 1) m

/-- The snapshot (R501, R502): shadows, DONE, UNLOCKED, the time used. -/
def hoopTake (g : Gen) (m : Mach) (t : Nat) : Mach :=
  let m := (copyShadows g m).updSh fun s => { s with hoop := none }
  let m := hoopMark g (m.setReg (hoopKey 1) (setBit (m.reg g (hoopKey 1)) 0 false)) (2 + if m.time.st = .locked then 0 else 16)
  m.setReg (hoopKey 3) t

/-- Arm with a time and an ID (R500, R502): one that is pending is replaced, a time that has passed is taken at once. -/
def hoopArm (g : Gen) (m : Mach) (t id : Nat) : Mach :=
  let m := if m.sh.hoop.isSome then hoopMark g m 8 else m
  let m := (hoopMark g m 1).updSh fun s => { s with hoop := some (t, id) }
  let m := (m.setReg (hoopKey 2) id).setReg (hoopKey 4) t
  if t ≤ m.ft then hoopTake g (hoopMark g m 4) m.ft else m

/-- The HOOP packet to a node (R500). -/
def hoopPkt (g : Gen) (m : Mach) (t id n : Nat) : Pkt :=
  let h := { Hdr.zero with dest := mkFid n 0, src := m.fid g 0, vn := 5, cls := 1, cmd := 0xF3 }
  ⟨(((h.setCsf 246 243 (m.package g)).setCsf 242 242 (m.reg g (hoopKey 5))).setCsf 239 160 t).setCsf 159 144 id, [], false, []⟩

/-- One copy of a packet that needs no answer to every routed node (R469). The copies name local ID 0x00, which keeps them
from being forwarded again (log 36: WAKE and HOOP have no FWD bit). -/
def forwardCopies (g : Gen) (m : Mach) (p : Nat → Pkt) : Mach :=
  (otherNodes g m).foldl (fun m n => (shuttleSend m (p n)).getD m) m

/-- A write of T to HOOP (R500). -/
def hoopCmd (g : Gen) (m : Mach) (t : Nat) : Mach × Nat :=
  let id := (m.reg g (hoopKey 2) + 1) % 65536
  let pkt := hoopPkt g m t id
  (hoopArm g (forwardCopies g m pkt) t id, mgOk)

/-- HOOP (R500): T as FTIME80. -/
def hoop (t : Nat) (g : Gen) (m : Mach) : Mach := withStatus (hoopCmd g m (t % 2 ^ 80))
def execHoop (t : Nat) (s : State) := s.run (hoop t)

/-- HOOP_SNAPSHOT (R501): fabric time has come to T. -/
def hoopSnapshot (g : Gen) (m : Mach) : Mach :=
  match m.sh.hoop with
  | some (t, _) => hoopTake g (m.advanceFt t) t
  | none => m

def execHoopSnapshot (s : State) := s.run hoopSnapshot

/-! ### Logs -/

/-- Engines of an NI. -/
def enginesAt (g : Gen) (l : Nat) : List Nat := (List.range g.engineCount).filter fun i => (g.engHost i).1 == l

/-- LOG_CLEAR (R454, R457): both records and all counts, the log's ERR_PEND bit; the FAULT_FIRST of an NI's engines (R348). What
arrived at the log in the same ao cycle is applied after it. An isolated instance's logs stay frozen (R448). -/
def logClearAt (g : Gen) (m : Mach) (idx : Nat) : Mach :=
  if m.sh.isolated then m
  else
    let c := m.logNow g idx
    let m := putRecords m idx { c with before := (0, 0) }
    let m := [0, 1, 2, 3].foldl (fun m s => m.setReg (key idx (3 + s)) (c.cnts.getD s 0)) m
    let m := match pendBit idx with
      | some (k, b) => m.setReg k (setBit (m.reg g k) b (c.cnts.any (· != 0)))
      | none => m
    if 0x9200 ≤ idx && idx < 0x9300 then
      (enginesAt g (idx - 0x9200)).foldl (fun m i => m.setReg (engKey i 5) 0) m
    else m

/-- LOG_CLEAR (R454) of the log at an index. -/
def logClear (idx : Nat) (g : Gen) (m : Mach) : Mach × Nat := (logClearAt g m idx, mgOk)

def execLogClear (log : Nat) (s : State) := s.runWrite (hasLog s.gen log) (logClear log)

/-- Events that cross from one log's unit: the record that waited and the counts not yet applied (R527). -/
def applyLog (g : Gen) (m : Mach) (idx : Nat) : Mach :=
  match m.logs.get? idx with
  | none => m
  | some l =>
    let m := match l.waiting with
      | some w => recordEvent g m idx w
      | none => m
    let m := [3, 2, 1, 0].foldl (fun m s => countEvents g m idx s (l.counts.getD s 0 - l.applied.getD s 0)) m
    { m with logs := m.logs.put idx { m.log idx with waiting := none, applied := l.counts } }

/-- LOG_EVENT_ARRIVAL (R527): the events of these logs arrive in one ao cycle; ERR_PENDING and the notification follow once
for all of them (R454, R455). -/
def logEventArrival (logs : List Nat) (g : Gen) (m : Mach) : Mach :=
  if m.sh.isolated then m
  else
    let before := m.reg g (key 0x9800 1)
    notifyRise g (logs.foldl (fun m idx => applyLog g (((logDomain g idx).map (crossValue g m)).getD m) idx) m) before

def execLogEventArrival (logs : List Nat) (s : State) := s.run (logEventArrival logs)

/-! ### The Shuttle tick -/

/-- A measured domain clock (R402): more than 2 % off, the crossing is marked and the event logged. -/
def measureClock (g : Gen) (m : Mach) (d mhz : Nat) : Mach :=
  let f := m.cfg g (domKey d 2)
  if !g.hasDom d then m
  else if 2 * f < 100 * (f - mhz) || 2 * f < 100 * (mhz - f) then
    logEv g (m.orReg g (domKey d 7) 8) (logD d) 0x14 0 0 mhz
  else m

/-- What every NI, link and port keeps per tick (R385, R441, R451). -/
def tickWindows (g : Gen) (m : Mach) : Mach :=
  let m := g.nis.foldl (fun m n =>
    let pv := m.reg g (niKey n.loc 0x40)
    m.updN n.loc fun x => { x with pvTicks := (pv :: x.pvTicks).take 255, rx := { x.rx with resets := 0 } }) m
  let m := g.routers.foldl (fun m r => m.updR r fun x => { x with ins := x.ins.map fun (p, i) => (p, { i with resets := 0 }) }) m
  g.ports.foldl (fun m q => m.updP q.p fun x => { x with crcFails := 0 }) m

/-- SHUTTLE_TICK (R402), the next 1 ms control tick (log 164): `measured` gives the clocks measured, `storeError` an uncorrectable error in the Shuttle's store. -/
def shuttleTick (measured : List (Nat × Nat)) (storeError : Bool) (g : Gen) (m : Mach) : Mach :=
  let m := m.advanceTo (m.now + m.ticksOn 1)
  let m := measured.foldl (fun m (d, f) => measureClock g m d f) m
  let m := tickWindows g m
  let m := m.apply fun k => k / 256 == 0x9800
  let m := computeTol g (m.updSh fun s => { s with ticks := s.ticks + 1 })
  if storeError then isolate g m else m

def execShuttleTick (measured : List (Nat × Nat)) (storeError : Bool) (s : State) := s.run (shuttleTick measured storeError)

/-! ### Repair, aging, release -/

/-- TABLE_REPAIR (R446). -/
def tableRepair (e : TabErr) (_g : Gen) (m : Mach) : Mach :=
  m.updSh fun s => { s with badEntries := s.badEntries.filter (· != e) }

def execTableRepair (e : TabErr) (s : State) := s.run (tableRepair e)

/-- Every 1,000th Shuttle tick an aging monitor measures (R513, log 164). -/
def ageUnits : Nat := 1000 * tickUnits

/-- When the monitor of domain d measures next. -/
def ageDue (m : Mach) (d : Nat) : Nat := max ((m.deadline (.age d)).getD 0) ((m.now + ageUnits - 1) / ageUnits * ageUnits)

/-- AGE_MEASURE (R513, R514): the monitor of a domain in P0. -/
def ageMeasure (d degrade : Nat) (g : Gen) (m : Mach) : Mach :=
  if (m.dom d).st ≠ .p0 then m
  else
    let m := (m.advanceTo (ageDue m d)).startTimer (.age d) ageUnits
    let k := key 0xA800 d
    let was := bit (m.reg g k) 16
    let reached := m.reg g (key 0xA801 1) ≤ degrade
    let m := m.setReg k (degrade + (if was || reached then 65536 else 0))
    if reached && !was then m.addSat g (key 0xA801 2) 1 else m

def execAgeMeasure (d degrade : Nat) (s : State) :=
  s.runIf (1 ≤ d && s.gen.hasDom d && degrade < 65536) (ageMeasure d degrade)

/-- PV_RELEASE (R451): the quarantine ends, and the next rise of hy_ep_agent_rdy opens the port. -/
def pvReleaseNi (g : Gen) (m : Mach) (l : Nat) : Mach :=
  let pv := m.reg g (niKey l 0x40)
  (m.setReg (niKey l 0x42) 0).updN l fun n =>
    { n with pvTicks := [], pvBase := pv, ep := { n.ep with quarantined := false, needFall := n.ep.needFall || (n.ep.quarantined && n.ep.rdy) } }

def pvRelease (l : Nat) (g : Gen) (m : Mach) : Mach × Nat := (pvReleaseNi g m l, mgOk)
def execPvRelease (l : Nat) (s : State) := s.runWrite (l != 0 && s.gen.hasNi l) (pvRelease l)

/-- DENY_CLEAR (R368). -/
def denyClearNi (m : Mach) (l : Nat) : Mach := [3, 4, 5].foldl (fun m s => m.setReg (guardKey l s) 0) m

def denyClear (l : Nat) (_g : Gen) (m : Mach) : Mach × Nat := (denyClearNi m l, mgOk)

def execDenyClear (l : Nat) (s : State) := s.runWrite (s.gen.isInit l) (denyClear l)

/-- GUARD_SWAP (R360, R370): accepted for one guard or for every guard. -/
def guardSwapCmd (g : Gen) (m : Mach) (v : Nat) : Mach × Nat :=
  let add (m : Mach) (l : Nat) : Mach := m.updN l fun n => { n with guard := { n.guard with swaps := n.guard.swaps + 1 } }
  if v = 0x7F then (((g.nis.map (·.loc)).filter g.isInit).foldl add m, mgOk)
  else if g.isInit v then (add m v, mgOk)
  else (m, mgAbsent)

def guardSwap (v : Nat) (g : Gen) (m : Mach) : Mach := withStatus (guardSwapCmd g m v)
def execGuardSwap (v : Nat) (s : State) := s.run (guardSwap v)

end Sys2Proof.Machine
end

