-- ==== Sys2Proof/Machine/Dict.lean ====
section
/-! DEFINITION. The parameter dictionary at work: what a read returns (R11, R520), the checks of a write in the order of R522,
what a write does, STORE (R480, R481), RESTORE_DEFAULTS (R483), image records (R484) and REGISTER_WRITE. -/

namespace Sys2Proof.Machine

open Sys2Proof

/-! ### Reads -/

def FState.code : FState → Nat
  | .running => 0
  | .stopping => 1
  | .stopped => 2
  | .starting => 3

def EpState.code : EpState → Nat
  | .closed => 0
  | .opening => 1
  | .opened => 2
  | .agentDown => 3

def LinkState.code : LinkState → Nat
  | .down => 0
  | .detect => 1
  | .laneTrain => 2
  | .param => 3
  | .mismatch => 4
  | .up => 5
  | .retrain => 6
  | .failed => 7

def PrkState.code : PrkState → Nat
  | .idle => 0
  | .armed => 1
  | .active => 2
  | .activeArmed => 3

def PwrState.code : PwrState → Nat
  | .p0 => 0
  | .p1 => 1
  | .p2 => 2
  | .p3 => 3
  | .closing => 4
  | .waking => 5

/-- CTX_STATUS of one context (R349). -/
def CtxSt.code : CtxSt → Nat
  | .ready => 1
  | .waitEvent _ _ => 2
  | .waitMem | .waitData => 3
  | .waitSend => 4
  | .waitColl => 5
  | .ending => 6

def ctxStatus (e : Engine) : Nat :=
  ((List.range 8).map fun c => ((e.ctxs.get? c).map (·.st.code)).getD 0 * 16 ^ c).sum

/-- The NI and region index of a guard region object. -/
def regionOf? (k : Nat) : Option (Nat × Nat) :=
  let i := k / 256
  if 0x5000 ≤ i && i < 0x51FA && (i - 0x5000) % 4 = 1 then some ((i - 0x5000) / 4 + 1, k % 256) else none

/-- A guard with every accepted swap in effect: region writes and swaps go in the order of their acceptance (R360). -/
def settleGuard : Nat → Guard → Guard
  | 0, x => x
  | fuel + 1, x =>
    if x.swaps = 0 then x else settleGuard fuel (applyLocks { x with activeB := !x.activeB, swaps := x.swaps - 1 })

def Guard.settled (x : Guard) : Guard := settleGuard x.swaps x

/-- GUARD_STATUS (R370). -/
def guardStatus (x : Guard) : Nat := x.locked + x.activeB.toNat * 2 ^ 32 + x.open_.toNat * 2 ^ 33

/-- GUARD_CTRL: ENABLE reads 1 while an index is locked (R364). -/
def guardCtrl (g : Gen) (m : Mach) (l : Nat) : Nat :=
  let w := m.reg g (guardKey l 1)
  if (m.ni l).guard.locked = 0 then w else setBit w 0 true

/-- PRK_STATE: from slot A on the armed bank is the active one (R194, R196). -/
def prkStateNow (m : Mach) : PrkState :=
  if (m.prk.st = .armed || m.prk.st = .activeArmed) && m.prk.slot ≤ m.time.sc then (if bankEmpty m.prk.armed then .idle else .active)
  else m.prk.st

/-- Objects below 0x4000 whose value a unit holds. DEDUCED (log 176): RSV_VIEW selects the bank of the descriptors too. -/
def liveLow (g : Gen) (m : Mach) (k : Nat) : Option Nat :=
  let idx := k / 256
  let sub := k % 256
  if k = key 0x2000 4 then some ((g.ports.filter fun q => portLive m q.p).map fun q => 2 ^ q.p).sum
  else if 0x2200 ≤ idx && idx < 0x2300 && sub = 1 then some (m.rt g (idx - 0x2200)).fs.code
  else if 0x2200 ≤ idx && idx < 0x2300 && sub = 2 then
    some ((m.rt g (idx - 0x2200)).cyclic.toNat + (m.rt g (idx - 0x2200)).cause * 16)
  else if k = key 0x3000 2 then some m.time.st.code
  else if k = key 0x3000 3 then some (m.time.ft % 2 ^ 80)
  else if k = key 0x3000 5 then some (m.time.upstream.getD 0xFF)
  else if k = key 0x3000 8 then some (ofSigned 32 m.time.slotErr)
  else if k = key 0x3000 9 then some (m.time.present.toNat + 2 * m.time.tod.isSome.toNat)
  else if k = key 0x3100 1 then some (prkStateNow m).code
  else if isPrkKey k && m.reg g (key 0x3100 9) = 1 then some ((m.bankAt m.time.sc).1.getD k 0)
  else none

/-- Objects of NIs, guards and engines whose value a unit holds. -/
def liveMid (g : Gen) (m : Mach) (k : Nat) : Option Nat :=
  let idx := k / 256
  let sub := k % 256
  if 0x4000 ≤ idx && idx < 0x4800 && (idx - 0x4000) % 16 = 0 then
    let n := m.ni ((idx - 0x4000) / 16 + 1)
    if sub = 1 then some n.fs.code
    else if sub = 2 then some n.ep.st.code
    else if sub = 3 then some n.tab.tags.length
    else none
  else if 0x4A00 ≤ idx && idx < 0x4C00 then some (vpStatus m ((idx - 0x4A00) / 4 + 1) ((idx - 0x4A00) % 4 * 256 + sub))
  else if 0x5000 ≤ idx && idx < 0x51FA && (idx - 0x5000) % 4 = 0 && sub = 1 then some (guardCtrl g m ((idx - 0x5000) / 4 + 1))
  else if 0x5000 ≤ idx && idx < 0x51FA && (idx - 0x5000) % 4 = 0 && sub = 2 then
    some (guardStatus (m.ni ((idx - 0x5000) / 4 + 1)).guard)
  else match regionOf? k with
  | some (l, j) =>
    let x := (m.ni l).guard
    some ((if bit (m.reg g (guardKey l 1)) 1 then x.active else x.shadow).getD j 0)
  | none =>
    if 0x6100 ≤ idx && idx < 0x6180 then
      let e := m.eng (idx - 0x6100)
      if sub = 1 then some (e.fs.code + e.evSat.toNat * 128)
      else if sub = 3 then some (penOf g m (idx - 0x6100))
      else if sub = 8 then some (ctxStatus e)
      else if sub = 9 then some (crc32c (Mem.readBytes e.imem 0 16384))
      else if sub = 0x0F then some ((List.range 31).map fun j => e.ev.getD j 0 * 65536 ^ j).sum
      else if 0x30 ≤ sub && sub < 0x40 then some (collOf m (idx - 0x6100) (sub - 0x30)).round
      else none
    else if 0x6400 ≤ idx && idx < 0x6480 then some (Mem.read (m.eng (idx - 0x6400)).imem (256 * sub) 256)
    else if 0x6500 ≤ idx && idx < 0x6580 then some ((m.eng (idx - 0x6500)).load (256 * sub) 256)
    else none

/-- XING_STATUS.MODE (R404). DEDUCED (log 180): one bit for all bridges of the domain, SYNC where it and every domain across a
bridge were generated on the slot clock. -/
def xingMode (g : Gen) (d : Nat) : Nat := if (d :: neighbours g d).all (slotClocked g) then 16 else 0

/-- Objects from 0x7000 on whose value a unit holds. -/
def liveHigh (g : Gen) (m : Mach) (k : Nat) : Option Nat :=
  let idx := k / 256
  let sub := k % 256
  if 0x7100 ≤ idx && idx < 0x7108 && sub = 1 then some (m.port (idx - 0x7100)).link.code
  else if 0x7100 ≤ idx && idx < 0x7108 && sub = 4 then some (m.port (idx - 0x7100)).trained
  else if 0x8100 ≤ idx && idx < 0x8180 && sub = 2 && c0Pinned g m (idx - 0x8100) then some 2000
  else if 0x8100 ≤ idx && idx < 0x8180 && sub = 3 then some (m.dom (idx - 0x8100)).st.code
  else if 0x8100 ≤ idx && idx < 0x8180 && sub = 6 then some (pinBits g m (idx - 0x8100) (judgedState g m (idx - 0x8100)))
  else if 0x8100 ≤ idx && idx < 0x8180 && sub = 7 then some (m.reg g k + xingMode g (idx - 0x8100))
  else if idx = 0x8302 then some (m.port (sub - 1)).pwr
  else none

/-- What a read of a present object returns (R11, R520): a WO object reads as zero. -/
def objRead (g : Gen) (m : Mach) (k : Nat) (o : Obj) : Nat :=
  if o.acc = .wo then 0
  else if k < key 0x4000 0 then (liveLow g m k).getD (m.reg g k)
  else if k < key 0x7000 0 then (liveMid g m k).getD (m.reg g k)
  else (liveHigh g m k).getD (m.reg g k)

/-! ### Values (R519, and the ranges of each chapter) -/

/-- The domains across a bridge from domain d. -/
def bridgeNeighbours (g : Gen) (d : Nat) : List Nat :=
  ((allEnds g).filterMap fun e =>
    let a := endDomain g e
    let b := senderDomain g e
    if a = d && b ≠ d then some b else if b = d && a ≠ d then some a else none).filter (· != 0)

/-- DOMAIN_FREQ (R413, R435). -/
def freqOk (g : Gen) (m : Mach) (d v : Nat) : Bool :=
  (v == 2000 || (g.domKind d != 3 && !c0Pinned g m d)) &&
    (bridgeNeighbours g d).all fun n =>
      let f := m.reg g (domKey n 2)
      max f v ≤ 8 * min f v

/-- A bucket object (R217, R222). -/
def shapeOk (v : Nat) : Bool := v % 65536 == 0 || 5 ≤ v / 65536

/-- The value is within its object's range, type and encoding. -/
def valueOk (g : Gen) (m : Mach) (k : Nat) (o : Obj) (v : Nat) : Bool :=
  let idx := k / 256
  let sub := k % 256
  if !(o.lo ≤ v && v ≤ o.hi) then false
  else if 0x7100 ≤ idx && idx < 0x7108 && sub = 3 then v == 16 || v == 32
  else if k = key 0x3100 2 then v % 16 == 0
  else if idx = 0x3001 then (-20000 ≤ toSigned 32 v && toSigned 32 v ≤ 20000 : Bool)
  else if 0x4000 ≤ idx && idx < 0x4800 && (idx - 0x4000) % 16 = 0 && (sub = 0x20 || sub = 0x21) then shapeOk v
  else if 0x4000 ≤ idx && idx < 0x4800 && (idx - 0x4000) % 16 = 0 && sub = 0x22 then between 4 16 (fld v 5 1)
  else if 0x4000 ≤ idx && idx < 0x4800 && (idx - 0x4000) % 16 = 0 && sub = 0x31 then between 1 5 (fld v 31 28)
  else if 0x4800 ≤ idx && idx < 0x4A00 then fld v 30 29 ≠ 3 && fld v 28 16 ≤ 4096 && 1 ≤ fld v 15 8
  else if 0x4C00 ≤ idx && idx < 0x4E00 then shapeOk v
  else if (regionOf? k).isSome then regionOk v
  else if 0x8100 ≤ idx && idx < 0x8180 && sub = 2 then freqOk g m (idx - 0x8100) v
  else if 0xA200 ≤ idx && idx < 0xA280 && sub = 0x83 then fld v 5 1 ≤ 16
  else if 0xA200 ≤ idx && idx < 0xA280 && sub = 0x85 then 1 ≤ v / 65536
  else true

/-! ### States that forbid a write -/

/-- Start-up has reached step 4: locks and CTRL_LOCK hold, region writes go to the shadow set (R369). -/
def guardsUp (g : Gen) (m : Mach) : Bool := 4 ≤ m.reg g (key 0x1200 1)

/-- A GUARD_CTRL write that R364 refuses. -/
def ctrlLocked (g : Gen) (m : Mach) (l v : Nat) : Bool :=
  let old := guardCtrl g m l
  guardsUp g m &&
    (((m.ni l).guard.settled.locked != 0 && !bit v 0) || (bit old 31 && setBit (v &&& 0x800000F7) 1 false != setBit old 1 false))

/-- The object is of the pricking's shadow (R188). -/
def prkShadow (k : Nat) : Bool := isPrkKey k || k == key 0x3100 2 || k == key 0x3100 4 || k == key 0x3100 5

/-- The first of ACCESS_STOP_REQUIRED, ACCESS_LOCKED, PRK_ARMED that forbids the write for now (R522). -/
def stateRefusal (g : Gen) (m : Mach) (k : Nat) (o : Obj) (v : Nat) : Option Nat :=
  let idx := k / 256
  if o.acc = .rws && !((ownerOf g k).map (m.ownerStopped g)).getD true then some mgStopRequired
  else if (match regionOf? k with
    | some (l, j) => guardsUp g m && bit (m.ni l).guard.settled.locked j
    | none => false) then some mgLocked
  else if 0x5000 ≤ idx && idx < 0x51FA && (idx - 0x5000) % 4 = 0 && k % 256 = 1 && ctrlLocked g m ((idx - 0x5000) / 4 + 1) v then
    some mgLocked
  else if prkShadow k && (m.prk.st = .armed || m.prk.st = .activeArmed) then some mgPrkArmed
  else none

/-! ### What a write does -/

/-- An accepted RWS value: it waits until its owner's next STARTING, unless it takes effect at once (R520, R521). -/
def acceptRws (g : Gen) (m : Mach) (k v : Nat) : Mach :=
  if immediate k then m.setReg k v
  else
    let old := m.cfg g k
    { m with inForce := m.inForce.put k old }.setReg k v

/-- A new value of a bucket's object (R218, R222): it fills at the RATE before until the next ns. -/
def Bucket.rewrite (b : Bucket) (old new now : Nat) : Bucket :=
  if new % 65536 = 0 then ⟨0, now, 0, 0⟩
  else if old % 65536 = 0 then Bucket.full new now
  else
    let b := b.refill old now
    { b with level := min b.level (new / 65536 * 64000 * 65536), old := if now < b.upto then b.old else old % 65536,
             upto := (now / 65536 + 1) * 65536 }

/-- A region write (R360, R369). -/
def putRegion (g : Gen) (m : Mach) (l j v : Nat) : Mach :=
  let up := guardsUp g m
  m.updN l fun n =>
    let x := n.guard.settled
    let x := if up && !x.activeB then { x with setB := x.setB.put j v } else { x with setA := x.setA.put j v }
    { n with guard := x }

/-- The general objects of an NI that do more than hold a value. -/
def putNi (g : Gen) (m : Mach) (l sub k v : Nat) : Mach :=
  let old := m.reg g k
  let now := m.ft
  let m' := m.write k v
  if sub = 0x20 then m'.updTx l fun t => { t with niBucket := t.niBucket.rewrite old v now }
  else if sub = 0x21 then m'.updTx l fun t => { t with mBucket := t.mBucket.rewrite old v now }
  else if sub = 0x22 then m'.updTx l fun t => { t with mirrorCount := 0 }
  else m'

/-- PWR_ENABLE = 0 brings every domain and link back (R434). -/
def wakeAll (g : Gen) (m : Mach) : Mach :=
  let m := (g.doms.filter fun d => d.d != 0 && d.kind != 3).foldl (fun m d => beginWake g m d.d) m
  g.ports.foldl (fun m q => linkWake g m q.p) m

/-- Put an accepted value of an object that is no command, group or virtual port control. -/
def putObj (g : Gen) (m : Mach) (k : Nat) (o : Obj) (v : Nat) : Mach :=
  let idx := k / 256
  let sub := k % 256
  let w := v &&& o.mask
  if o.acc = .w1c then m.write k (m.reg g k - (m.reg g k &&& w))
  else if 0x6400 ≤ idx && idx < 0x6480 then
    m.updE (idx - 0x6400) fun e => { e with imem := Mem.write e.imem (256 * sub) 256 v }
  else if o.acc = .rws then acceptRwsOf g m k w
  else if 0x6500 ≤ idx && idx < 0x6580 then m.updE (idx - 0x6500) fun e => e.store (256 * sub) (toBytes v 256) false
  else if 0x3400 ≤ idx && idx < 0x3580 then
    let old := m.reg g k
    m.write k (w + (old - (old &&& o.mask)))
  else if 0x4000 ≤ idx && idx < 0x4800 && (idx - 0x4000) % 16 = 0 then putNi g m ((idx - 0x4000) / 16 + 1) sub k w
  else if 0x4C00 ≤ idx && idx < 0x4E00 then
    let l := (idx - 0x4C00) / 4 + 1
    let n := (idx - 0x4C00) % 4 * 256 + sub
    let old := m.reg g k
    let now := m.ft
    (m.setReg k w).updVp l n fun x => { x with bucket := x.bucket.rewrite old w now }
  else match regionOf? k with
  | some (l, j) => putRegion g m l j w
  | none =>
    if k = key 0x8000 1 && w = 0 then wakeAll g (m.setReg k w)
    else if idx = 0x9800 && 4 ≤ sub && sub ≤ 6 then
      let old := m.cfg g k
      { m with inForce := m.inForce.put k old }.setReg k w
    else if idx = 0x8000 && 2 ≤ sub && sub ≤ 4 then
      (m.updSh fun s => { s with idleHist := s.idleHist ++ [(m.now, [2, 3, 4].map fun j => m.reg g (key 0x8000 j))] }).setReg k w
    else if k = key 0x9800 2 then m.setReg k (w % 8 + 8)
    else if 0xA200 ≤ idx && idx < 0xA280 && sub = 0x83 then
      (m.setReg k w).updTx (idx - 0xA200) fun t => { t with sampleCount := 0 }
    else m.write k w
where
  /-- A change of TIME_ROLE moves the instance in the time tree at once (R521). -/
  acceptRwsOf (g : Gen) (m : Mach) (k w : Nat) : Mach :=
    if k = key 0x3000 1 then
      let before := position g m
      reposition g ((acceptRws g m k w).startTimer .exchange (usUnits 3000)) before
    else acceptRws g m k w

/-- The group of a GROUP_CTRL, and the NI and virtual port of a VP_CTRL. -/
def groupOf? (k : Nat) : Option Nat :=
  if 0x2300 ≤ k / 256 && k / 256 < 0x2304 then some ((k / 256 - 0x2300) * 256 + k % 256) else none

def vpCtrlOf? (k : Nat) : Option (Nat × Nat) :=
  let idx := k / 256
  if 0x4800 ≤ idx && idx < 0x4A00 then some ((idx - 0x4800) / 4 + 1, (idx - 0x4800) % 4 * 256 + k % 256) else none

/-- A write of a value that is in order in itself to an object that is no command. -/
def writeData (g : Gen) (m : Mach) (k : Nat) (o : Obj) (v : Nat) : Mach × Nat :=
  match stateRefusal g m k o v with
  | some c => (m, c)
  | none =>
    match groupOf? k, vpCtrlOf? k with
    | some n, _ => groupWrite g m n (bit v 0)
    | none, some (l, n) => vpCtrlWrite g m l n (v &&& o.mask)
    | none, none => (putObj g m k o v, mgOk)

/-! ### The persistent image (R480, R481) -/

/-- What a record of an object holds: the value a read returns, and of a guard region the entry of the active set. -/
def storeValue (g : Gen) (m : Mach) (k : Nat) (o : Obj) : Nat :=
  match regionOf? k with
  | some (l, j) => (m.ni l).guard.active.getD j 0
  | none => objRead g m k o

/-- Keys of objects that may differ from their defaults. -/
def touchedKeys (g : Gen) (m : Mach) : Tab Unit :=
  let t : Tab Unit := m.regs.foldl (fun t (k, _) => t.put k ()) []
  let t := g.nis.foldl (fun t n =>
    if g.isInit n.loc then ((List.range 32).map fun j => guardKey n.loc (256 + j)).foldl (fun t k => t.put k ()) (t.put (guardKey n.loc 1) ())
    else t) t
  (List.range g.engineCount).foldl (fun t i => (List.range 64).foldl (fun t s => t.put (key (0x6400 + i) s) ()) t) t

/-- The records of an image: key, size and value, in ascending order. -/
def imageRecords (g : Gen) (m : Mach) : List (Nat × Nat × Nat) :=
  (touchedKeys g m).filterMap fun (k, _) =>
    match objOf g k with
    | some o =>
      let v := storeValue g m k o
      if persistent k o && v != dfltOf g m k then some (k, o.ty.size, v) else none
    | none => none

/-- Bytes of one record, padded to a multiple of 4. -/
def recordBytes (r : Nat × Nat × Nat) : List Byte :=
  let (k, n, v) := r
  toBytes (k / 256) 2 ++ toBytes (k % 256) 1 ++ toBytes (n - 1) 1 ++ toBytes v n ++ List.replicate ((4 - n % 4) % 4) 0

/-- The persistent image of this moment (R480). -/
def imageBytes (g : Gen) (m : Mach) : List Byte :=
  let rs := imageRecords g m
  let body := rs.flatMap recordBytes
  let head := toBytes 0x00030200 4 ++ toBytes (genDigest g) 4 ++ toBytes (36 + body.length) 4 ++ toBytes rs.length 4 ++
    toBytes m.ns 8 ++ List.replicate 8 0
  head ++ body ++ toBytes (crc32c (head ++ body)) 4

/-- Send bytes as chunks of 256 B in offset order. -/
def sendChunks (g : Gen) : Nat → Nat → List Byte → Mach → Mach
  | 0, _, _, m => m
  | fuel + 1, off, bs, m =>
    if bs.isEmpty then m
    else
      let c := bs.take 256
      sendChunks g fuel (off + 256) (bs.drop 256) (m.emit (.mctp (vendorMsg g.vendorIana 3 (toBytes off 4 ++ toBytes c.length 2 ++ c))))

/-- STORE (R481): the image goes to the MCTP endpoint that last set the endpoint ID; without one it fails. -/
def storeCmd (g : Gen) (m : Mach) : Mach × Nat :=
  if m.sh.job.isSome then (m, mgBusy)
  else if m.sh.host.isNone then (setCmdStatus m false 3 3 0, mgOk)
  else
    let bs := imageBytes g m
    let m := sendChunks g (bs.length / 256 + 1) 0 bs (setCmdStatus m true 3 0 0)
    let m := (m.emit (.mctp (vendorMsg g.vendorIana 4 (toBytes bs.length 4)))).startTimer .store (usUnits (1000 * m.reg g (key 0x1100 7)))
    (m.updSh fun s => { s with job := some ⟨3, 0, [], 0⟩ }, mgOk)

/-- STORE completes with a RESULT. -/
def storeEnds (m : Mach) (result : Nat) : Mach :=
  match m.sh.job with
  | some j => if j.sub = 3 then setCmdStatus ((m.stopTimer .store).updSh fun s => { s with job := none }) false 3 result 0 else m
  | none => m

/-! ### RESTORE_DEFAULTS (R483) -/

/-- The objects a FUNC_ID stands for. DEDUCED (log 37): the routing function's are its own and every router's, the instance's
are all. -/
def ownedBy (g : Gen) (fid k : Nat) : Bool :=
  fid / 4096 == 7 ||
    (match ownerOf g k with
     | some (.func f) => f == fid || (fid / 4096 == 2 && f / 4096 == 1)
     | _ => false)

/-- Keys whose objects RESTORE_DEFAULTS may have to write. -/
def restoreKeys (g : Gen) (m : Mach) (fid : Nat) : List Nat :=
  ((touchedKeys g m).map (·.1)).filter fun k =>
    ownedBy g fid k && (match objOf g k with | some o => o.acc == .rw || o.acc == .rws | none => false)

/-- One object back to its default: locked guard entries stay, and of a locked GUARD_CTRL only VIEW goes back. A VP_CTRL
whose state does not allow the write stays (log 37). -/
def restoreObj (g : Gen) (m : Mach) (k : Nat) : Mach :=
  match objOf g k with
  | none => m
  | some o =>
    let d := dfltOf g m k
    match regionOf? k, groupOf? k, vpCtrlOf? k with
    | some (l, j), _, _ => if bit (m.ni l).guard.settled.locked j then m else putRegion g m l j d
    | none, some n, _ => ((m.setReg k 2).updSh fun s => { s with draining := s.draining.erase n }).stopTimer (.group n)
    | none, none, some (l, n) => (vpCtrlWrite g m l n d).1
    | none, none, none =>
      if bit (m.reg g k) 31 && (0x5000 ≤ k / 256 && k / 256 < 0x51FA && k % 256 = 1) then m.setReg k (setBit (m.reg g k) 1 false)
      else putObj g m k o d

/-- Scratch of an engine is RW and goes back to zero. -/
def restoreScratch (g : Gen) (m : Mach) (fid : Nat) : Mach :=
  ((List.range g.engineCount).filter fun i => fid / 4096 == 7 || fid == 0x4000 + i).foldl (fun m i =>
    m.updE i fun e => { e with scratch := [], poisoned := [] }) m

/-- The function named is STOPPED; of the instance, every function. -/
def restoreAllowed (g : Gen) (m : Mach) (fid : Nat) : Bool :=
  m.allStopped g (membersOf g fid) && (fid / 4096 != 7 || m.prk.st == .idle)

def restoreCmd (g : Gen) (m : Mach) (fid : Nat) : Mach × Nat :=
  if fidStatus g fid ≠ mgOk then (m, fidStatus g fid)
  else if !restoreAllowed g m fid then (m, mgStopRequired)
  else if m.sh.job.isSome then (m, mgBusy)
  else (setCmdStatus (restoreScratch g ((restoreKeys g m fid).foldl (restoreObj g) m) fid) false 4 0 fid, mgOk)

/-! ### Commands -/

/-- The WAKE packet of a WAKE_SEND value (R426, R434). -/
def wakePkt (g : Gen) (m : Mach) (v : Nat) : Pkt :=
  let h := { Hdr.zero with dest := BitVec.ofNat 16 (fld v 63 48), src := m.fid g 0, vn := 5, cls := 1, cmd := 0xF2 }
  ⟨((h.setCsf 246 240 (fld v 46 40)).setCsf 239 239 (fld v 47 47)).setCsf 238 223 (fld v 15 0), [], false, []⟩

def wakeSendCmd (g : Gen) (m : Mach) (v : Nat) : Mach × Nat := ((shuttleSend m (wakePkt g m v)).getD m, mgOk)

/-- A write to a WO object: a command, at once (R11). -/
def writeCommand (g : Gen) (m : Mach) (k v : Nat) : Mach × Nat :=
  let idx := k / 256
  let sub := k % 256
  if idx = 0xF000 then
    (if sub = 1 then stopCmd g m v
     else if sub = 2 then startCmd g m v
     else if sub = 3 then storeCmd g m
     else if sub = 4 then restoreCmd g m v
     else if sub = 5 then guardSwapCmd g m v
     else if sub = 6 then (if v = 1 then armCmd g m else disarmCmd g m, mgOk)
     else hoopCmd g m v)
  else if idx = 0x8000 then wakeSendCmd g m v
  else if 0x4000 ≤ idx && idx < 0x4800 then
    let l := (idx - 0x4000) / 16 + 1
    if sub = 0x31 then vpOp g m l (fld v 31 28) (fld v 9 0) else (pvReleaseNi g m l, mgOk)
  else if 0x5000 ≤ idx && idx < 0x5200 then (denyClearNi m ((idx - 0x5000) / 4 + 1), mgOk)
  else if 0x6100 ≤ idx && idx < 0x6180 then
    (if fld v 31 28 = 1 then startCtxCmd (idx - 0x6100) (fld v 3 0) g m else m, mgOk)
  else if 0x7100 ≤ idx && idx < 0x7108 then
    let p := idx - 0x7100
    (if v = 1 then retrainCmd p g m else if v = 2 then disableCmd p g m else enableCmd p g m, mgOk)
  else (logClearAt g m idx, mgOk)

/-! ### Writes as a whole -/

/-- Domain whose clock an object's unit needs (R430, R460; DEDUCED, log 188): objects of routers, NIs, guards, engines and ports; the Shuttle
keeps logs, tables and the domains' own objects itself. -/
def objDomain (g : Gen) (k : Nat) : Option Nat :=
  let idx := k / 256
  if 0x2200 ≤ idx && idx < 0x2300 then some (g.region (idx - 0x2200))
  else if 0xA100 ≤ idx && idx < 0xA200 then some (g.region (idx - 0xA100))
  else if 0x4000 ≤ idx && idx < 0x4800 && idx ≠ 0x4001 then some (g.niDom ((idx - 0x4000) / 16 + 1))
  else if 0x4800 ≤ idx && idx < 0x4E00 then some (g.niDom ((idx - 0x4800) % 0x200 / 4 + 1))
  else if 0x5000 ≤ idx && idx < 0x5200 then some (g.niDom ((idx - 0x5000) / 4 + 1))
  else if 0x6100 ≤ idx && idx < 0x6180 then some (g.niDom (engNi g (idx - 0x6100)))
  else if 0x6400 ≤ idx && idx < 0x6480 then some (g.niDom (engNi g (idx - 0x6400)))
  else if 0x6500 ≤ idx && idx < 0x6580 then some (g.niDom (engNi g (idx - 0x6500)))
  else if 0x7100 ≤ idx && idx < 0x7108 then (g.port? (idx - 0x7100)).map (·.dom)
  else if 0xA200 ≤ idx && idx < 0xA400 then some (g.niDom ((idx - 0xA200) % 256))
  else none

/-- Wake the domain an access needs, when it is in P2 or P3 (R430, R460). -/
def wakeFor (g : Gen) (m : Mach) (k : Nat) : Mach :=
  match objDomain g k with
  | some d => if d ≠ 0 && ((m.dom d).st == .p2 || (m.dom d).st == .p3) then wakeDomain g m d else m
  | none => m

/-- The access waits for its domain to wake. -/
def mustWait (g : Gen) (m : Mach) (k : Nat) : Bool :=
  match objDomain g k with
  | some d => d != 0 && ((m.dom d).st == .p2 || (m.dom d).st == .p3 || (m.dom d).st == .waking)
  | none => false

/-- A write of `size` bytes to the object at a key: refused with the first code of R522 that applies, or accepted. -/
def writeObj (g : Gen) (m : Mach) (k size v : Nat) : Mach × Nat :=
  match objOf g k with
  | none => (m, mgAbsent)
  | some o =>
    if o.acc = .ro || o.acc = .const then (m, mgReadOnly)
    else if size ≠ o.ty.size then (m, mgLength)
    else if !valueOk g m k o v then (m, mgRange)
    else
      let (m', st) := if o.acc = .wo then writeCommand g (wakeFor g m k) k v else writeData g (wakeFor g m k) k o v
      if st = mgOk then (m', mgOk) else (m, st)

/-- REGISTER_WRITE (R11, R12, R522): one write to the dictionary, answered with its MG_STATUS. -/
def registerWrite (index sub size value : Nat) (g : Gen) (m : Mach) : Mach :=
  withStatus (if index < 65536 && sub < 256 then writeObj g m (key index sub) size value else (m, mgAbsent))

def execRegisterWrite (index sub size value : Nat) (s : State) := s.run (registerWrite index sub size value)

/-- STORE (R481). -/
def store (_v : Nat) (g : Gen) (m : Mach) : Mach := withStatus (storeCmd g m)
def execStore (v : Nat) (s : State) := s.run (store v)

/-- STORE_TIMEOUT (R481). -/
def storeTimeout (_g : Gen) (m : Mach) : Mach := m.onExpiry .store fun m => storeEnds m 4
def execStoreTimeout (s : State) := s.run storeTimeout

/-- RESTORE_DEFAULTS (R483). -/
def restoreDefaults (fid : Nat) (g : Gen) (m : Mach) : Mach := withStatus (restoreCmd g m fid)
def execRestoreDefaults (funcId : Nat) (s : State) := s.run (restoreDefaults funcId)

/-- WAKE_SEND (R426). -/
def wakeSend (v : Nat) (g : Gen) (m : Mach) : Mach := withStatus (wakeSendCmd g m v)
def execWakeSend (v : Nat) (s : State) := s.run (wakeSend v)

/-! ### Image records (R484) -/

/-- What becomes of a record. -/
inductive Loaded where
  | applied | skipped | rejected
deriving DecidableEq, Repr

/-- An object's value as an image record gives it: every function is STOPPED at step 3, so only the value is judged, and it
is in force at once (log 38). -/
def loadObj (g : Gen) (m : Mach) (k : Nat) (o : Obj) (v : Nat) : Mach × Bool :=
  match groupOf? k, vpCtrlOf? k with
  | some n, _ =>
    let (m', st) := groupWrite g m n (bit v 0)
    (m', st == mgOk)
  | none, some (l, n) =>
    let (m', st) := vpCtrlWrite g m l n (v &&& o.mask)
    (m', st == mgOk)
  | none, none =>
    let m := putObj g m k o v
    (m.apply fun k' => k' == k, true)

/-- One record: index, subindex, size and value. -/
def loadRecord (g : Gen) (m : Mach) (k size v : Nat) : Mach × Loaded :=
  match objOf g k with
  | none => (m, .skipped)
  | some o =>
    if !persistent k o then (m, .skipped)
    else if size ≠ o.ty.size || !valueOk g m k o v then (m, .rejected)
    else
      let (m', ok) := loadObj g m k o v
      if ok then (m', .applied) else (m, .rejected)

/-- Apply the records that follow, and count those skipped and rejected. -/
def loadRecords (g : Gen) : Nat → List Byte → Mach → Nat → Nat → Mach × Nat × Nat
  | 0, _, m, sk, rj => (m, sk, rj)
  | n + 1, bs, m, sk, rj =>
    let size := ofBytes ((bs.drop 3).take 1) + 1
    let len := 4 + (size + 3) / 4 * 4
    if bs.length < 4 + size then (m, sk, rj)
    else
      let k := key (ofBytes (bs.take 2)) (ofBytes ((bs.drop 2).take 1))
      let (m, x) := loadRecord g m k size (ofBytes ((bs.drop 4).take size))
      loadRecords g n (bs.drop len) m (sk + (x == .skipped).toNat) (rj + (x == .rejected).toNat)

/-- IMAGE_STATUS. -/
def setImageStatus (m : Mach) (code sk rj : Nat) : Mach :=
  m.setReg (key 0x1200 3) (code * 2 ^ 24 + min sk 0xFFF * 2 ^ 12 + min rj 0xFFF)

/-- The checks of an image in their order, and its records (R484). -/
def loadImage (g : Gen) (m : Mach) (bs : List Byte) : Mach :=
  let word (a : Nat) : Nat := ofBytes ((bs.drop a).take 4)
  let n := bs.length
  if n < 36 || word 8 ≠ n || crc32c (bs.take (n - 4)) ≠ word (n - 4) then setImageStatus m 2 0 0
  else if word 0 / 256 ≠ 0x000302 then setImageStatus m 3 0 0
  else if word 4 ≠ genDigest g then setImageStatus m 4 0 0
  else
    let (m, sk, rj) := loadRecords g (word 12) ((bs.take (n - 4)).drop 32) m 0 0
    setImageStatus m 0 sk rj

end Sys2Proof.Machine
end

