-- ==== Sys2Proof/Machine/Shuttle.lean ====
section
/-! DEFINITION. The Shuttle's service: management requests in-band and over MCTP (R458-R473), broadcasts (R469), the packets of
its NI (R523), WAKE and HOOP as received (R426, R500), and the MCTP messages that are no request (R471, R472, R481, R528). -/

namespace Sys2Proof.Machine

open Sys2Proof

/-! ### One access -/

/-- The answer to an access: MG_STATUS and data. -/
structure MgAnswer where
  status : Nat
  data : List Byte
deriving DecidableEq, Repr

/-- MG_READ, MG_WRITE or MG_INFO of the object at a key (R465, R467). -/
def mgAccess (g : Gen) (m : Mach) (op k : Nat) (bs : List Byte) : Mach × MgAnswer :=
  if op = 0xA1 then
    let (m, st) := writeObj g m k bs.length (ofBytes bs)
    (m, ⟨st, []⟩)
  else match objOf g k with
  | none => (m, ⟨mgAbsent, []⟩)
  | some o =>
    if op = 0xA0 then (m, ⟨mgOk, toBytes (objRead g m k o) o.ty.size⟩)
    else (m, ⟨mgOk, toBytes (o.descriptor k (dfltOf g m k)) 16⟩)

/-- A write that is refused whatever the state of the unit, or an access of no unit's object: answered without a wake. -/
def answeredAsleep (g : Gen) (m : Mach) (op k : Nat) (bs : List Byte) : Bool :=
  op == 0xA2 ||
  match objOf g k with
  | none => true
  | some o => op == 0xA1 && (o.acc == .ro || o.acc == .const || bs.length != o.ty.size || !valueOk g m k o (ofBytes bs))

/-! ### In-band requests -/

/-- Key of the object an in-band ADDR names (R464). -/
def addrKey (a : Nat) : Nat := key (fld a 31 16) (fld a 15 8)

/-- ADDR or CSF of a request breaks R468. -/
def mgMalformed (h : Hdr) : Bool :=
  if h.c = 0xA3 then h.a != 0 || h.csfFld 246 240 != 0 || h.csfFld 213 32 != 0
  else fld h.a 55 48 != 0xFD || fld h.a 47 32 != 0 || fld h.a 7 0 != 0 || h.csfFld 245 32 != 0

/-- RSP_MGMT to a request (R55, R466). -/
def mgmtRsp (g : Gen) (m : Mach) (h : Hdr) (status mg ok fail squashed : Nat) (bs : List Byte) : Pkt :=
  let r := rspHdr h (m.fid g 0) 0x93 status bs.length
  mkPkt ((((r.setCsf 242 235 mg).setCsf 234 225 ok).setCsf 224 215 fail).setCsf 214 204 squashed) bs

def mgAnswer (g : Gen) (m : Mach) (h : Hdr) (a : MgAnswer) : Mach :=
  sendResponse m 0 (mgmtRsp g m h stOk a.status 0 0 0 a.data)

/-- MG_MALFORMED (R468, R523). -/
def countMalformed (g : Gen) (m : Mach) : Mach := m.addSat g (key 0x1100 5) 1

/-- One copy of a broadcast (R469). -/
def copyPkt (g : Gen) (m : Mach) (p : Pkt) (id n : Nat) : Pkt :=
  let h := p.hdr.setCsf 246 246 1
  { p with hdr := { h with dest := mkFid n 0, src := m.fid g 0, tag := BitVec.ofNat 12 id, vport := 0, seq := 0, injTime := 0 } }

/-- Answer a broadcast: copies still without an answer count as failed. -/
def endBroadcast (g : Gen) (m : Mach) (b : Nat) : Mach :=
  match m.sh.bcast.get? b with
  | none => m
  | some x =>
    let m := (m.stopTimer (.bcast b)).updSh fun s => { s with
      bcast := s.bcast.del b
      calls := s.calls.filter fun (_, c) => match c with | .copy b' _ => b' != b | _ => true }
    sendResponse m 0 (mgmtRsp g m x.hdr stOk x.status x.ok (x.fail + x.waiting.length) 0 [])

/-- A write sent to (n, 0x7F): applied here, copied to every routed node, answered when all have answered (R469). -/
def broadcast (g : Gen) (m : Mach) (p : Pkt) : Mach :=
  match m.sh.bcast.lowestFree 0 4096 with
  | none => mgAnswer g m p.hdr ⟨mgQueueFull, []⟩
  | some b =>
    let (m, a) := mgAccess g m p.hdr.c (addrKey p.hdr.a) p.bytes
    let (m, ns, bad) := (otherNodes g m).foldl (fun (m, ns, bad) n =>
      match shuttleCall m (.copy b n) (fun id => copyPkt g m p id n) with
      | some m => (m, ns ++ [n], bad)
      | none => (m, ns, bad + 1)) (m, [], 0)
    let m := (m.updSh fun s => { s with bcast := s.bcast.put b ⟨p.hdr, a.status, ns, 0, bad⟩ }).startTimer (.bcast b) (m.ticksOn 2)
    if ns.isEmpty then endBroadcast g m b else m

/-- An in-band request is accepted (R458, R464-R470). -/
def acceptMg (g : Gen) (m : Mach) (p : Pkt) : Mach :=
  let h := p.hdr
  let bc := fidLocal h.dest == 0x7F && h.csfFld 246 246 == 0
  if 0xA4 ≤ h.c then mgAnswer g m h ⟨mgUnknown, []⟩
  else if mgMalformed h then sendResponse (countMalformed g m) 0 (mgmtRsp g m h stProtocol 0 0 0 0 [])
  else if h.c = 0xA3 then
    if fidLocal h.src ≠ 0 then mgAnswer g m h ⟨mgDenied, []⟩
    else
      let (m, n) := squashContexts g m (h.csfFld 239 224) (h.csfFld 223 214)
      sendResponse m 0 (mgmtRsp g m h stOk mgOk 0 0 n [])
  else if bc then (if h.c = 0xA1 then broadcast g m p else mgAnswer g m h ⟨mgUnknown, []⟩)
  else
    let (m, a) := mgAccess g m h.c (addrKey h.a) p.bytes
    mgAnswer g m h a

/-- The object access of a request that has to wait for its domain: its key. -/
def waitsFor (g : Gen) (m : Mach) (op k : Nat) (bs : List Byte) : Bool :=
  between 0xA0 0xA2 op && !answeredAsleep g m op k bs && mustWait g m k

def inBandWaiting (m : Mach) : Nat := (m.sh.waitq.filter fun x => match x with | .inBand _ => true | _ => false).length
def outBandWaiting (m : Mach) : Nat := (m.sh.waitq.filter fun x => match x with | .outBand _ => true | _ => false).length

/-- MG_BUSY_COUNT (R461). -/
def countBusy (g : Gen) (m : Mach) : Mach := m.addSat g (key 0x1100 4) 1

/-- Whether a MG_REQ is for this instance (R473). -/
def mgReqLocal (g : Gen) (m : Mach) (q : MgReq) : Bool := q.target == 0xFFFF || q.target.toNat == m.node g

def mgReqKey (q : MgReq) : Nat := key q.index.toNat q.sub.toNat

/-- A request does not wait for its object's domain (R460). -/
def reqReady (g : Gen) (m : Mach) : ShReq → Bool
  | .inBand p => mgMalformed p.hdr || !waitsFor g m p.hdr.c (addrKey p.hdr.a) p.bytes
  | .outBand q => !(mgReqLocal g m q && waitsFor g m q.op.toNat (mgReqKey q) q.data)

/-- A request that arrives now is accepted now: none was accepted in this ao cycle, and none that is ready waits (R458). -/
def mayAccept (g : Gen) (m : Mach) : Bool := m.sh.accepted != m.aoCycle && !m.sh.waitq.any (reqReady g m)

/-- One acceptance in this ao cycle. -/
def noteAccept (m : Mach) : Mach :=
  let c := m.aoCycle
  m.updSh fun s => { s with accepted := c }

/-- A request joins those that wait for acceptance. -/
def enqueueReq (m : Mach) (x : ShReq) : Mach := m.updSh fun s => { s with waitq := s.waitq ++ [x] }

/-- A management request reaches the Shuttle over its NI (R458, R460, R461): answered BUSY with 16 waiting, kept while its
object's domain wakes or while the Shuttle accepts others, accepted otherwise. -/
def serveMg (g : Gen) (m : Mach) (p : Pkt) : Mach :=
  if 16 ≤ inBandWaiting m then mgAnswer g (countBusy g m) p.hdr ⟨mgQueueFull, []⟩
  else if !reqReady g m (.inBand p) then enqueueReq (wakeFor g m (addrKey p.hdr.a)) (.inBand p)
  else if mayAccept g m then acceptMg g (noteAccept m) p
  else enqueueReq m (.inBand p)

/-! ### WAKE, HOOP and the rest of the Shuttle's NI (R426, R500, R523) -/

/-- A WAKE at the Shuttle; one sent to 0x7F is copied on. -/
def takeWake (g : Gen) (m : Mach) (p : Pkt) : Mach :=
  let m := if fidLocal p.hdr.dest = 0x7F then
      let self := m.fid g 0
      forwardCopies g m fun n => { p with hdr := { p.hdr with dest := mkFid n 0, src := self, seq := 0 } }
    else m
  wakeDomains g m p.hdr

/-- A HOOP at the Shuttle: ignored from another package unless it is for all (R500). -/
def takeHoop (g : Gen) (m : Mach) (p : Pkt) : Mach :=
  let h := p.hdr
  if h.csfFld 242 242 = 0 && h.csfFld 246 243 ≠ m.package g then m
  else
    let m := if fidLocal h.dest = 0x7F then
        let self := m.fid g 0
        forwardCopies g m fun n => { p with hdr := { h with dest := mkFid n 0, src := self, seq := 0 } }
      else m
    hoopArm g m (h.csfFld 239 160) (h.csfFld 159 144)

/-- A trace entry (R231). -/
def traceEntry (g : Gen) (m : Mach) (p : Pkt) : Mach :=
  (m.setReg (key 0xA700 (m.reg g (key 0xA700 0x40) % 64)) (ofBytes p.bytes)).addWrap g (key 0xA700 0x40) 1

/-- What the Shuttle does with a request delivered by its NI. -/
def shuttleTake (g : Gen) (m : Mach) (p : Pkt) : Mach :=
  let c := p.hdr.c
  if isManagement c then serveMg g m p
  else if c = 0xF2 then takeWake g m p
  else if c = 0xF3 then takeHoop g m p
  else if c = 0x80 && p.hdr.n = 128 then traceEntry g m p
  else
    let m := countMalformed g m
    if p.hdr.np then answer g m 0 p.hdr stUnreachable else m

/-! ### Out-of-band requests -/

/-- The MCTP endpoint is ready (R485, step 2). -/
def mctpUp (g : Gen) (m : Mach) : Bool := m.sh.porN && 3 ≤ m.reg g (key 0x1200 1)

/-- A message that carries this vendor's IANA number (R528). -/
def forUs (g : Gen) (m : Mach) (iana : BitVec 32) : Bool := mctpUp g m && iana.toNat == g.vendorIana

def mgRspOut (g : Gen) (m : Mach) (q : MgReq) (a : MgAnswer) : Mach := m.emit (.mctp (mgRspMsg g q.op.toNat a.status a.data))

/-- The in-band request a MG_REQ becomes (R464, R473). -/
def forwardPkt (g : Gen) (m : Mach) (q : MgReq) (id : Nat) : Pkt :=
  let a := BitVec.ofNat 56 (0xFD * 2 ^ 48 + q.index.toNat * 2 ^ 16 + q.sub.toNat * 2 ^ 8)
  let h := { Hdr.zero with dest := mkFid q.target.toNat 0, src := m.fid g 0, vn := 5, cls := 1 }
  let h := { h with cmd := q.op, tag := BitVec.ofNat 12 id, addr := a }
  if q.op = 0xA1 then mkPkt { h with len := BitVec.ofNat 9 q.data.length } q.data else ⟨h, [], false, []⟩

/-- A MG_REQ is accepted. -/
def acceptReq (g : Gen) (m : Mach) (q : MgReq) : Mach :=
  if !between 0xA0 0xA2 q.op.toNat then mgRspOut g m q ⟨mgUnknown, []⟩
  else if q.op = 0xA1 && q.size ≠ q.data.length then mgRspOut g m q ⟨mgLength, []⟩
  else if mgReqLocal g m q then
    let (m, a) := mgAccess g m q.op.toNat (mgReqKey q) q.data
    mgRspOut g m q a
  else
    let id := (m.sh.calls.lowestFree 0 4096).getD 0
    match shuttleCall m (.forward q) (forwardPkt g m q) with
    | some m => m.startTimer (.forward id) (m.ticksOn 2)
    | none => mgRspOut g m q ⟨mgQueueFull, []⟩

/-- MG_REQ (R458, R461, R472, R473, R528). -/
def mgReq (q : MgReq) (g : Gen) (m : Mach) : Mach :=
  if !forUs g m q.iana then m
  else if 4 ≤ outBandWaiting m then mgRspOut g (countBusy g m) q ⟨mgQueueFull, []⟩
  else if !reqReady g m (.outBand q) then enqueueReq (wakeFor g m (mgReqKey q)) (.outBand q)
  else if mayAccept g m then acceptReq g (noteAccept m) q
  else enqueueReq m (.outBand q)

/-- The message as it comes; one that is no MG_REQ has no effect. -/
def execMgReq (msg : List Byte) (s : State) :=
  s.run fun g m => match MgReq.ofBytes msg with
    | some q => mgReq q g m
    | none => m

/-- The request to be accepted next: out-of-band before in-band, each in order (R458). -/
def nextReq (g : Gen) (m : Mach) : Option ShReq :=
  match m.sh.waitq.find? fun x => reqReady g m x && (match x with | .outBand _ => true | _ => false) with
  | some x => some x
  | none => m.sh.waitq.find? (reqReady g m)

/-- One waiting request is accepted, when this ao cycle has seen no acceptance (R458). -/
def acceptWaiting (g : Gen) (m : Mach) : Mach :=
  if m.sh.accepted = m.aoCycle then m
  else match nextReq g m with
    | none => m
    | some x =>
      let m := noteAccept (m.updSh fun s => { s with waitq := s.waitq.erase x })
      match x with
      | .outBand q => acceptReq g m q
      | .inBand p => acceptMg g m p

/-- DOMAIN_WAKE_DONE (R417, R425, R460, R496): the domain is in P0 again, and accesses that waited for it are answered. -/
def execDomainWakeDone (d : Nat) (s : State) :=
  s.runIf (s.gen.hasDom d) fun g m => acceptWaiting g (domainWakeDone d g m)

/-- MG_FORWARD_TIMEOUT (R473): two control ticks without an answer. -/
def mgForwardTimeout (id : Nat) (g : Gen) (m : Mach) : Mach :=
  match m.sh.calls.get? id with
  | some (.forward q) => m.onExpiry (.forward id) fun m => mgRspOut g (m.updSh fun s => { s with calls := s.calls.del id }) q ⟨mgQueueFull, []⟩
  | _ => m

def execMgForwardTimeout (id : Nat) (s : State) := s.run (mgForwardTimeout id)

/-- BROADCAST_ANSWER (R469): every copy has been answered, or two control ticks have passed. -/
def broadcastAnswer (id : Nat) (g : Gen) (m : Mach) : Mach :=
  match m.sh.bcast.get? id with
  | none => m
  | some x => if x.waiting.isEmpty then endBroadcast g m id else m.onExpiry (.bcast id) fun m => endBroadcast g m id

def execBroadcastAnswer (id : Nat) (s : State) := s.run (broadcastAnswer id)

/-! ### The rest of MCTP and I3C -/

/-- GET_VENDOR_DEFINED_MESSAGE_SUPPORT (R528). -/
def getVendor (g : Gen) (m : Mach) : Mach := if mctpUp g m then m.emit (.mctpVendor g.vendorIana) else m
def execGetVendorDefinedMessageSupport (s : State) := s.run getVendor

/-- IMAGE_ACK (R481): RESULT 0 completes STORE as DONE, RESULT 1 as STORE_FAILED. -/
def imageAck (iana : BitVec 32) (result : Nat) (g : Gen) (m : Mach) : Mach :=
  if !forUs g m iana then m
  else if result = 0 then storeEnds m 0
  else if result = 1 then storeEnds m 3
  else m

def execImageAck (head result : List Byte) (s : State) :=
  s.run fun g m => match imageAckOf (head ++ result) with
    | some (iana, result) => imageAck iana result g m
    | none => m

/-- SET_ENDPOINT_ID (R471, R481). -/
def setEndpointId (eid sender : Nat) (g : Gen) (m : Mach) : Mach :=
  if mctpUp g m then (m.setReg (key 0x1100 1) (eid % 256)).updSh fun s => { s with host := some sender } else m

def execSetEndpointId (eid sender : Nat) (s : State) := s.run (setEndpointId eid sender)

/-- ENTDAA (R471): from step 2 on, when I3C is enabled (R485). -/
def entdaa (addr : BitVec 7) (g : Gen) (m : Mach) : Mach :=
  if m.sh.porN && 2 ≤ m.reg g (key 0x1200 1) then m.setReg (key 0x1100 2) addr.toNat else m

def execEntdaa (addr : BitVec 7) (s : State) := s.run (entdaa addr)

end Sys2Proof.Machine
end

