-- ==== Sys2Proof/Machine/Startup.lean ====
section
/-! DEFINITION. Power-on reset and start-up (R26, R369, R484-R490). -/

namespace Sys2Proof.Machine

open Sys2Proof

def startupKey : Nat := key 0x1200 1

/-- STARTUP_STATE. -/
def startupState (g : Gen) (m : Mach) : Nat := m.reg g startupKey

/-- hy_fab_ready (R490). -/
def fabReady (g : Gen) (m : Mach) : Bool := m.sh.porN && startupState g m == 10 && !m.sh.isolated

/-- Levels that agents, SerDes and the lifecycle input hold across a reset. -/
def keepInputs (g : Gen) (old new : Mach) : Mach :=
  let n := new.nis.map fun (l, x) =>
    (l, { x with ep := { x.ep with rdy := (old.ni l).ep.rdy }, guard := { x.guard with open_ := old.sh.lifecycle == 0xA } })
  let p := g.ports.foldl (fun (t : Tab Port) q => t.upd q.p fun x => { x with serdes := (old.port q.p).serdes }) new.ports
  { new with nis := n, ports := p, sh := { new.sh with lifecycle := old.sh.lifecycle }, fresh := old.fresh, out := old.out }

/-- POR_ASSERT (R490): hy_por_n falls; the instance is reset. -/
def porAssert (g : Gen) (m : Mach) : Mach := keepInputs g m (Mach.resetOf g)
def execPorAssert (s : State) := s.run porAssert

/-- POR_RELEASE (R485): hy_por_n rises and step 1 begins. -/
def porRelease (_g : Gen) (m : Mach) : Mach :=
  if m.sh.porN then m
  else
    let now := m.now
    (m.setReg startupKey 1).updSh fun s => { s with porN := true, t0 := now, stepAt := now }

def execPorRelease (s : State) := s.run porRelease

/-- Enter a step. -/
def enterStep (m : Mach) (n : Nat) : Mach :=
  let now := m.now
  (m.setReg startupKey n).updSh fun s => { s with stepAt := now }

/-- Step 4 begins: locks and CTRL_LOCK apply as though set A had been activated by a swap (R369). -/
def enterStep4 (m : Mach) : Mach :=
  let m := (enterStep m 4).stopTimer .image
  let now := m.now
  let m := m.updSh fun s => { s with t4 := now, image := [] }
  { m with nis := m.nis.map fun (l, n) => (l, { n with guard := lockEntries n.guard n.guard.setA }) }

/-- Start-up halts at a step with a code of R478 (R488). -/
def haltStartup (m : Mach) (n code entry : Nat) : Mach :=
  (m.setReg (key 0x1200 2) (n * 2 ^ 24 + code * 2 ^ 16 + entry % 65536)).updSh fun s => { s with halted := true }

/-- Step 8 (R114, R485): routers iterative, routing function and ports RUNNING. -/
def startFabric (g : Gen) (m : Mach) : Mach :=
  let m := startRouting g m
  let m := g.routers.foldl (fun m r =>
    let m := (startUnit g m (0x1000 + r)).1
    let m := if (m.rt g r).fs = .starting then (returnCredits g m r).updR r fun x => { x with fs := .running } else m
    cyclicModeChange r g (m.updR r fun x => { x with want := some false })) m
  g.ports.foldl (fun m q => (startUnit g m (0x5000 + q.p)).1) m

/-- Step 9 (R269, R485): NIs RUNNING, endpoint ports OPENING. -/
def startNis (g : Gen) (m : Mach) : Mach :=
  g.nis.foldl (fun m n =>
    let m := (startUnit g m (0x3000 + n.loc)).1
    m.updN n.loc fun x => { x with
      fs := if x.fs = .starting then .running else x.fs
      ep := if x.ep.st = .closed then { x.ep with st := .opening, waiting := true } else x.ep }) m

/-- The end of step 9 (R485): the later of 60 µs after step 8 and FLOW_IDLE_TIME since step 4 began. -/
def readyAt (g : Gen) (m : Mach) : Nat :=
  max (m.sh.stepAt + usUnits 60) (m.sh.t4 + (g.nis.map fun n => flowIdle g m n.loc).foldl max 0)

/-- READY (R485, R490): the ports open, and STARTUP_TIME is taken. -/
def enterReady (g : Gen) (m : Mach) : Mach :=
  let m := m.advanceTo (readyAt g m)
  let m := g.nis.foldl (fun m n => niOpenWaitEnd n.loc g m) (enterStep m 10)
  m.setReg (key 0x1200 4) ((m.now - m.sh.t0) / usUnits 1)

/-- One step of start-up ends (R485). Step 3 ends with IMAGE_END or IMAGE_WAIT. Step 6 waits for a master or an
upstream for the 300 µs of the table at most (R158, R486; DEDUCED, log 39). -/
def startupNext (g : Gen) (m : Mach) : Mach :=
  match startupState g m with
  | 1 => enterStep (m.advanceTo (m.sh.t0 + usUnits 40)) 2
  | 2 => (enterStep m 3).startTimer .image (usUnits (1000 * m.reg g (key 0x1100 6)))
  | 4 =>
    if m.domains.all fun (_, d) => d.st == .p0 then g.ports.foldl (fun m q => enableCmd q.p g m) (enterStep m 5) else m
  | 5 =>
    let up := m.ports.all fun (_, p) => p.link == .up
    timeExchangeStart g (enterStep (if up then m else m.advanceTo (m.sh.stepAt + usUnits 450)) 6)
  | 6 =>
    let timed := isMaster g m || m.time.upstream.isSome
    if unassigned g m then haltStartup m 6 4 (m.node g)
    else enterStep (if timed then m else m.advanceTo (m.sh.stepAt + usUnits 300)) 7
  | 7 =>
    match routingRefusal g m with
    | some (code, entry) => haltStartup m 7 code entry
    | none => enterStep (startFabric g (checkGroups g m)) 8
  | 8 => enterStep (startNis g m) 9
  | 9 => enterReady g m
  | _ => m

/-- STARTUP_STEP (R485): start-up moves on. -/
def startupStep (g : Gen) (m : Mach) : Mach :=
  if !m.sh.porN || m.sh.halted then m else settleJob g (startupNext g m)

def execStartupStep (s : State) := s.run startupStep

/-! ### The image of step 3 (R484) -/

/-- Step 3 is being carried out. -/
def inStep3 (g : Gen) (m : Mach) : Bool := m.sh.porN && startupState g m == 3

/-- IMAGE_WAIT (R485): it passes from the start of step 3 with no chunk. -/
def imageWait (g : Gen) (m : Mach) : Mach :=
  if inStep3 g m && !m.sh.imageSeen then m.onExpiry .image fun m => enterStep4 (setImageStatus m 1 0 0) else m

def execImageWait (s : State) := s.run imageWait

/-- IMAGE_CHUNK (R472, R484): 1 to 256 bytes at an offset. -/
def imageChunk (iana : BitVec 32) (offset : Nat) (bytes : List Byte) (g : Gen) (m : Mach) : Mach :=
  if inStep3 g m && forUs g m iana && between 1 256 bytes.length then
    m.updSh fun s => { s with imageSeen := true, image := bytes.zipIdx.foldl (fun t (b, i) => t.put (offset + i) b) s.image }
  else m

def execImageChunk (head offset data : List Byte) (s : State) :=
  s.run fun g m => match chunkOf (head ++ offset ++ data) with
    | some (iana, offset, bytes) => imageChunk iana offset bytes g m
    | none => m

/-- IMAGE_END (R484): the image is checked and applied, and step 3 ends. -/
def imageEnd (iana : BitVec 32) (total : Nat) (g : Gen) (m : Mach) : Mach :=
  if inStep3 g m && forUs g m iana then
    enterStep4 (loadImage g m ((List.range total).map fun i => m.sh.image.getD i 0))
  else m

def execImageEnd (head total : List Byte) (s : State) :=
  s.run fun g m => match imageEndOf (head ++ total) with
    | some (iana, total) => imageEnd iana total g m
    | none => m

end Sys2Proof.Machine
end

