-- ==== Sys2Proof/Machine/Arrive.lean ====
section
/-! DEFINITION. A packet at its destination NI (R254): fabric-internal commands and generated completions (R54, R78, R262, R444,
R445), classification by SEQ (R75-R82, R260, R261) and by the twin-thread rule (R182-R187), delivery (R235, R236, R266, R268,
R300, R330, R334) and completions (R251-R253), with the rows of the timers of class 0. -/

namespace Sys2Proof.Machine

open Sys2Proof

/-! ### Engine commands -/

/-- The engine a command's ADDR names, when it passes the check of R300. -/
def engineAddr (g : Gen) (m : Mach) (l : Nat) (h : Hdr) : Option Nat :=
  let a := h.a
  if fld a 55 48 = 0xFE && (fld a 47 32 == (m.fid g l).toNat || (h.mcast && h.c == 0x51)) && fld a 29 15 == 0 &&
      fld a 31 30 < g.engines l then g.engAt l (fld a 31 30)
  else none

/-- RD_SCRATCH (R305): a poisoned word makes the answer POISON (R58). -/
def scratchRead (g : Gen) (m : Mach) (l i : Nat) (h : Hdr) : Mach :=
  let e := m.eng i
  let a := fld h.a 14 0
  if e.bad a h.n then answer g m l h stPoison
  else sendResponse m l (rspDataPkt h (m.fid g l) stOk (e.loadBytes a h.n))

/-- WR_SCRATCH (R305): DPOISON is stored with the data. -/
def scratchWrite (g : Gen) (m : Mach) (l i : Nat) (p : Pkt) : Mach :=
  answer g (m.updE i fun e => e.store (fld p.hdr.a 14 0) p.bytes (p.hdr.csfFld 246 246 == 1)) l p.hdr stOk

/-- An arriving COLL_RESULT (R340, R342). DEDUCED (log 40): one for a descriptor that is not VALID, or of the wrong length,
is treated as a contribution would be. -/
def collResultAt (g : Gen) (m : Mach) (i : Nat) (p : Pkt) : Mach :=
  let d := p.hdr.csfFld 245 242
  let x := descOf g m i d
  let ab := p.hdr.csfFld 241 241 == 1
  if !x.valid then m.cntN g (engNi g i) 0x36
  else if !ab && p.bytes.length ≠ 64 * x.flits then m.cntN g (engNi g i) 0x37
  else receiveResult g m i d p.bytes ab

/-- The start an ENG_INVOKE or an ENG_EVENT asks for (R318, R320, R321). -/
def startOf (p : Pkt) : Start :=
  let h := p.hdr
  let args := if h.c = 0x52 then [BitVec.ofNat 64 (h.csfFld 239 176), BitVec.ofNat 64 (h.csfFld 175 112), BitVec.ofNat 64 (h.csfFld 111 48)]
    else [BitVec.ofNat 64 (h.csfFld 236 221), 0, 0]
  { entry := h.csfFld 245 242, w0 := h.bits, args := args, len := h.n, src := h.src, vport := h.vport,
    inv := if h.c = 0x52 then some h else none, data := if h.c = 0x52 then p.bytes else [] }

/-- ENG_INVOKE at engine i (R317, R319, R345). -/
def invokeAt (g : Gen) (m : Mach) (i : Nat) (p : Pkt) : Mach :=
  let l := engNi g i
  if (m.eng i).fs.down then answer g m l p.hdr stStopped
  else if !invokeEn g m i then answer g (m.cntN g l 0x34) l p.hdr stStopped
  else queueStart g m i (startOf p)

/-- ENG_EVENT at engine i (R315, R317, R319, R345). A start with EVENT_START_EN = 0 and the reserved event 31 have no effect. -/
def eventAt (g : Gen) (m : Mach) (i : Nat) (p : Pkt) : Mach :=
  if (m.eng i).fs.down then m.cntN g (engNi g i) 0x35
  else if p.hdr.csfFld 246 246 = 1 then (if eventStartEn g m i then queueStart g m i (startOf p) else m)
  else if p.hdr.csfFld 241 237 = 31 then m
  else signalEvent m i (p.hdr.csfFld 241 237) (p.hdr.csfFld 236 221)

/-- A command for engine i, consumed by its host NI (R70-R72, R319). -/
def engineTake (g : Gen) (m : Mach) (l i : Nat) (p : Pkt) : Mach :=
  let h := p.hdr
  if h.c = 0x03 then scratchRead g m l i h
  else if h.c = 0x26 then scratchWrite g m l i p
  else if h.c = 0x52 then invokeAt g m i p
  else if h.c = 0x53 then eventAt g m i p
  else if (m.eng i).fs.down then m.cntN g (engNi g i) 0x35
  else if h.c = 0x50 then contribute g m i (h.csfFld 245 242) (h.csfFld 239 224) (h.csfFld 241 241 == 1) p.bytes
  else collResultAt g m i p

/-! ### Delivery of a request -/

/-- What becomes of a request that is to be delivered at NI l. -/
inductive Verdict where
  | shuttle
  /-- An MG_n request at a customer NI (R236). -/
  | noMgmt
  /-- A remote violation, or a non-posted request to an initiator NI: the STATUS it is answered with (R235, R300). -/
  | refused (status : Nat)
  | stopped
  | engine (i : Nat)
  | agentDown
  | agent
deriving DecidableEq, Repr

/-- The first case that holds: R236, R235, R300, R266, the engine commands, R268. -/
def verdict (g : Gen) (m : Mach) (l : Nat) (h : Hdr) : Verdict :=
  if l = 0 then .shuttle
  else if isManagement h.c then .noMgmt
  else if g.kind l = 1 && h.np then .refused stUnreachable
  else
    let eng := if namesEngine h.c && g.kind l ≠ 1 then some (engineAddr g m l h) else none
    if eng = some none then .refused stProtocol
    else if (m.ni l).fs.down then .stopped
    else match eng with
      | some (some i) => .engine i
      | _ => if (m.ni l).ep.st = .opened then .agent else .agentDown

/-- A request for the agent. A class-0 packet goes straight to the egress bus (R255); the others, and one that R334 or R335
makes wait, join the ejection FIFO of their VN. -/
def toAgent (g : Gen) (m : Mach) (l : Nat) (p : Pkt) (cred : Bool) : Mach :=
  let h := p.hdr
  let taken := if (m.ni l).ep.eject.getD h.v [] = [] then (pathOf g m l h).bind fun i => takeAtomic g m l i p else none
  match taken with
  | some m => ejectCredits m l p cred
  | none =>
    if h.k = 0 && (pathOf g m l h).isNone && !touchesLock g m l h then
      presentNow g (if h.np then m.updTab l fun t => { t with pending := t.pending ++ [h] } else m) l ⟨p, false, none, false⟩
    else pushEject g m l h.v ⟨p, false, none, cred⟩

/-- Deliver a request in its turn. -/
def deliver (g : Gen) (m : Mach) (l : Nat) (p : Pkt) (cred : Bool) : Mach :=
  let h := p.hdr
  match verdict g m l h with
  | .shuttle => shuttleTake g (ejectCredits m l p cred) p
  | .noMgmt => sendResponse (ejectCredits m l p cred) l (mkPkt (rspHdr h (m.fid g l) 0x93 stUnreachable 0) [])
  | .refused st =>
    let m := remoteViolation g (ejectCredits m l p cred) l
    if h.np then answer g m l h st else m
  | .stopped => stopDiscard g (ejectCredits m l p cred) l h
  | .engine i => engineTake g (ejectCredits m l p cred) l i p
  | .agentDown =>
    let m := ejectCredits m l p cred
    if h.np then answer g m l h stUnreachable else m.cntN g l 0x29
  | .agent => toAgent g m l p cred

/-! ### Completions -/

/-- A completion at its initiator NI (R253, R262). A generated one releases only its own request. -/
def takeResponse (g : Gen) (m : Mach) (l : Nat) (p : Pkt) (cred : Bool) : Mach :=
  let tag := p.hdr.tag.toNat
  match (m.ni l).tab.tags.get? tag with
  | none => ejectCredits (m.cntN g l 0x25) l p cred
  | some e =>
    if tagHeld m l tag then ejectCredits (m.cntN g l 0x25) l p cred
    else
      let m := freeTag m l tag
      let m := if Hdr.isGenerated p.hdr then dropRetx m l fun q => q.hdr.flow == e.hdr.flow && q.hdr.seq == e.hdr.seq
        else releaseTo m l e.hdr.flow e.hdr.seq.toNat
      if e.fired then ejectCredits (m.cntN g l 0x24) l p cred else tagOutcome g m l e p cred

/-- A completion made by a router, a bridge or a link layer (R444). -/
def takeGenerated (g : Gen) (m : Mach) (l : Nat) (p : Pkt) (cred : Bool) : Mach :=
  match (m.ni l).tab.tags.get? p.hdr.tag.toNat with
  | some e => if e.hdr.addr = p.hdr.addr then takeResponse g m l p cred else ejectCredits (m.cntN g l 0x25) l p cred
  | none => ejectCredits (m.cntN g l 0x25) l p cred

/-- What is delivered in its turn: a completion or a request. -/
def deliverAny (g : Gen) (m : Mach) (l : Nat) (p : Pkt) (cred : Bool) : Mach :=
  if isResponse p.hdr.c then takeResponse g m l p cred else deliver g m l p cred

/-- The packet a bad data flit is found in, as it would be presented: nothing where its header was bad, came alone, or is not for
the agent. -/
def shownAs (g : Gen) (m : Mach) (l : Nat) (p : Pkt) : Option Pkt :=
  let h := p.hdr
  if p.badHdr || p.data.isEmpty then none
  else if isResponse h.c then
    match (m.ni l).tab.tags.get? h.tag.toNat with
    | some e => if e.org = .agent && e.part = 0 && !e.fired && !e.orphan && !tagHeld m l h.tag.toNat && (m.ni l).ep.st = .opened then
        some { p with hdr := { h with tag := e.agentTag } } else none
    | none => none
  else if verdict g m l h = .agent && (pathOf g m l h).isNone then some p else none

/-- The packet whose header has been presented before its bad data flit came: it goes on to its end with hy_ep_e_drop (R254). Its
header was presented where it could start at once: alone in its FIFO, with its egress credits, the bus free, no reserved run in
the way and, if it is non-posted, room in the pending table (R256, R257); class 0 always could (R255). -/
def presentedBad (g : Gen) (m : Mach) (l : Nat) (p : Pkt) : Option Pkt :=
  (shownAs g m l p).filter fun q =>
    q.hdr.k == 0 ||
      (((m.ni l).ep.eject.getD q.hdr.v []).isEmpty && m.awake (g.niDom l) && (m.ni l).ep.busy ≤ m.now &&
        egressReady g (pushEject g m l q.hdr.v ⟨q, false, none, false⟩) l q.hdr.v)

/-! ### Acknowledgement, retransmission (R54, R78, R262-R264) -/

/-- The flow of this NI that an acknowledgement or a NACK names. The Shuttle's NI answers for local ID 0x7F with its own
fabric ID, so a flow sent there is meant where none to 0x00 is known (log 41). -/
def namedFlow (g : Gen) (m : Mach) (l : Nat) (h : Hdr) : FlowKey :=
  let k : FlowKey := ⟨m.fid g l, h.src, false, BitVec.ofNat 3 (h.csfFld 215 213), BitVec.ofNat 2 (h.csfFld 212 211)⟩
  let k' : FlowKey := { k with dest := mkFid (fidNode h.src) 0x7F }
  let has (k : FlowKey) : Bool := (m.ni l).tab.src.any fun f => f.key == k
  if !has k && fidLocal h.src = 0 && has k' then k' else k

/-- Charge an attempt to the packet with SEQ s; the answer says whether RETRY_LIMIT allows it. -/
def chargeRetry (g : Gen) (m : Mach) (l : Nat) (k : FlowKey) (s : Nat) : Option Mach :=
  match (heldOf (m.ni l) k).find? fun x => x.pkt.hdr.seq.toNat == s with
  | none => some m
  | some x =>
    if niSet g m l 0x15 ≤ x.tries then none
    else some (m.updTab l fun t => { t with retx := t.retx.map fun y => if y = x then { y with tries := y.tries + 1 } else y })

/-- Close a flow that has no source entry, as a failure asks (R264). -/
def openEntry (m : Mach) (l : Nat) (k : FlowKey) : Mach :=
  if (m.ni l).tab.src.any fun f => f.key == k then m
  else
    let now := m.now
    m.updTab l fun t => { t with src := t.src ++ [⟨k, 0, false, now⟩] }

/-- Retransmit flow k from SEQ s on, charging s unless CAUSE is 3 (R78, R264). -/
def retransmit (g : Gen) (m : Mach) (l : Nat) (k : FlowKey) (s cause : Nat) : Mach :=
  match (if cause = 3 then some m else chargeRetry g m l k s) with
  | none => failFlow g m l k
  | some m =>
    let again := ((heldOf (m.ni l) k).map (·.pkt)).filter fun p => !seqBefore p.hdr.seq.toNat s
    m.updTx l fun t => { t with retxQ := t.retxQ.filter (fun p => !again.contains p) ++ again }

/-- A NACK_RETRY for flow k with EXPECT_SEQ s (R78). -/
def nackFor (g : Gen) (m : Mach) (l : Nat) (k : FlowKey) (s cause : Nat) : Mach :=
  let next := nextSeq m l k
  let oldest := ((heldOf (m.ni l) k).head?.map (·.pkt.hdr.seq.toNat)).getD next
  if seqBefore s oldest || s = next then m
  else if seqBefore s next then retransmit g m l k s cause
  else failFlow g (openEntry m l k) l k

def takeNack (g : Gen) (m : Mach) (l : Nat) (h : Hdr) : Mach :=
  nackFor g (m.cntN g l 0x15) l (namedFlow g m l h) (h.csfFld 239 224) (h.csfFld 210 208)

/-- A POSTED_ACK (R262): FIRST_SEQ to FIRST_SEQ + COUNT_M1. -/
def takePostedAck (g : Gen) (m : Mach) (l : Nat) (h : Hdr) : Mach :=
  releaseTo (m.cntN g l 0x17) l (namedFlow g m l h) ((h.csfFld 239 224 + h.csfFld 223 220) % 65536)

/-- A fabric-internal packet or a generated completion (R54, R444, R445). -/
def takeInternal (g : Gen) (m : Mach) (l : Nat) (p : Pkt) (cred : Bool) : Mach :=
  let c := p.hdr.c
  if p.isBad then
    let m := (ejectCredits m l p cred).cntN g l 0x2C
    if l = 0 then m else m.addWrap g (niKey l 0x44) 1
  else if c = 0x90 then takeGenerated g m l p cred
  else
    let m := ejectCredits m l p cred
    if c = 0xF0 then takePostedAck g m l p.hdr
    else if c = 0xF1 then takeNack g m l p.hdr
    else if (c = 0xF2 || c = 0xF3) && l = 0 then shuttleTake g m p
    else m

/-! ### Classification of classes 1 to 3 -/

def putDst (m : Mach) (l : Nat) (f : DstFlow) : Mach :=
  m.updTab l fun t =>
    { t with dst := if t.dst.any fun x => x.key == f.key then t.dst.map (fun x => if x.key = f.key then f else x) else t.dst ++ [f] }

/-- The entry of a flow; a flow without one is in order (R80, R261). An entry idle for FLOW_IDLE_TIME gives its place to a
new flow when the table is full. -/
def dstEntry (g : Gen) (m : Mach) (l : Nat) (k : FlowKey) (seq : Nat) : Option (Mach × DstFlow) :=
  let t := (m.ni l).tab.dst
  let new : DstFlow := { key := k, e := seq, nack := none, run := 0, runDeadline := 0, ended := [], lastRx := m.now }
  match t.find? fun f => f.key == k with
  | some f => some (m, { f with lastRx := m.now })
  | none =>
    if t.length < 1024 then some (m, new)
    else (t.find? fun f => f.lastRx + flowIdle g m l ≤ m.now).map fun old =>
      (m.updTab l fun t => { t with dst := t.dst.erase old }, new)

/-- The acknowledgement run after the packet with SEQ `seq` was delivered (R79, R259, R260). -/
def ackRun (g : Gen) (m : Mach) (l : Nat) (f : DstFlow) (h : Hdr) : Mach :=
  let seq := h.seq.toNat
  if h.acked then
    if f.run + 1 = 16 then sendAck g (putDst m l { f with run := 0 }) l f.key ((seq + 65521) % 65536) 16
    else putDst m l { f with run := f.run + 1, runDeadline := if f.run = 0 then m.now + ackDelayLen g m l else f.runDeadline }
  else if f.run = 0 then putDst m l f
  else putDst m l { f with run := 0, ended := f.ended ++ [((seq + 65536 - f.run) % 65536, f.run, f.runDeadline)] }

/-- A bad packet is counted, and logged when its E2E_CRC failed (R76). -/
def countBad (g : Gen) (m : Mach) (l : Nat) (p : Pkt) : Mach :=
  let m := m.cntN g l 0x18
  if p.poisoned then m else logEv g m (logN l) 0x05 0 p.hdr.src p.hdr.seq.toNat

/-- A NACK for E that becomes outstanding (R76, R77). -/
def raiseNack (g : Gen) (m : Mach) (l : Nat) (f : DstFlow) (cause : Nat) : Mach :=
  sendNack g (putDst m l { f with nack := some (m.now + nackRepeatLen g m l) }) l f.key f.e cause

/-- A bad packet (R76, first row; R254). DEDUCED (log 167): one that carries SEQ = E while a NACK for E is outstanding is an
arrival of R77, so the interval of the repeat begins anew. -/
def classifyBad (g : Gen) (m : Mach) (l : Nat) (p : Pkt) (f : DstFlow) (cred : Bool) : Mach :=
  let inOrder := p.hdr.seq.toNat == f.e
  let shown := if inOrder then presentedBad g m l p else none
  let m := countBad g m l p
  let m := if !inOrder then putDst m l f
    else if f.nack.isNone then raiseNack g m l f (if p.poisoned then 0 else 1)
    else putDst m l { f with nack := some (m.now + nackRepeatLen g m l) }
  match shown with
  | some q => pushEject g m l q.hdr.v ⟨q, true, none, cred⟩
  | none => ejectCredits m l p cred

/-- A unicast packet of classes 1 to 3 (R75, R76, R79, R260, R261). -/
def classify (g : Gen) (m : Mach) (l : Nat) (p : Pkt) (cred : Bool) : Mach :=
  let seq := p.hdr.seq.toNat
  match dstEntry g m l p.hdr.flow seq with
  | none => ejectCredits (m.cntN g l 0x26) l p cred
  | some (m, f) =>
    let d := seqDist seq f.e
    if p.isBad then classifyBad g m l p f cred
    else if 32768 ≤ d then ejectCredits ((putDst m l f).cntN g l 0x19) l p cred
    else if d ≠ 0 then ejectCredits (if f.nack.isNone then raiseNack g m l f 2 else putDst m l f) l p cred
    else
      deliverAny g (ackRun g m l { f with e := (seq + 1) % 65536, nack := none } p.hdr) l p cred

/-- The report of a destination NI (R82, R137). -/
def partialReport (g : Gen) (m : Mach) (l : Nat) (h : Hdr) : Pkt :=
  let r := { Hdr.zero with dest := h.src, src := m.fid g l, vn := 2, cls := 1, cmd := 0xF4 }
  let r := (((r.setCsf 246 244 1).setCsf 243 234 (h.dest.toNat % 1024)).setCsf 233 218 h.seq.toNat).setCsf 217 215 h.v
  ⟨(((r.setCsf 214 213 h.k).setCsf 212 212 1).setCsf 211 203 (m.node g)).setCsf 202 196 l, [], false, []⟩

/-- A multicast packet of classes 1 to 3 (R82). -/
def classifyMcast (g : Gen) (m : Mach) (l : Nat) (p : Pkt) (cred : Bool) : Mach :=
  let seq := p.hdr.seq.toNat
  match dstEntry g m l p.hdr.flow seq with
  | none => ejectCredits (m.cntN g l 0x26) l p cred
  | some (m, f) =>
    if p.isBad then
      let shown := if seqDist seq f.e < 32768 then presentedBad g m l p else none
      let m := (countBad g (putDst m l f) l p).sendInternal l (partialReport g m l p.hdr)
      match shown with
      | some q => pushEject g m l q.hdr.v ⟨q, true, none, cred⟩
      | none => ejectCredits m l p cred
    else if 32768 ≤ seqDist seq f.e then ejectCredits ((putDst m l f).cntN g l 0x19) l p cred
    else deliverAny g (putDst m l { f with e := (seq + 1) % 65536 }) l p cred

/-! ### Class 0 (R182-R187) -/

/-- The class-0 destination flow of a SRC and VN, with its number and descriptor. -/
def c0DstOf (m : Mach) (l : Nat) (src : BitVec 16) (vn : Nat) : Option (Nat × Nat) :=
  (c0Descs m 0x3500 l).find? fun (_, w) => fld w 119 104 == src.toNat && fld w 125 123 == vn

def c0Flow (m : Mach) (l j : Nat) : C0Dst := (m.ni l).tab.c0dst.getD j ⟨0, [], none, 0, 0, false, false, []⟩

def updC0 (m : Mach) (l j : Nat) (f : C0Dst → C0Dst) : Mach :=
  let x := f (c0Flow m l j)
  m.updTab l fun t => { t with c0dst := t.c0dst.put j x }

/-- TWIN_WINDOW of a destination descriptor. -/
def twinWindow (w : Nat) : Nat := fcUnits (fld w 79 64)

/-- The held packet with the lowest SEQ from E on. -/
def lowestHeld (x : C0Dst) : Option Pkt :=
  x.held.foldl (fun b p => match b with
    | none => some p
    | some q => if seqDist p.hdr.seq.toNat x.e < seqDist q.hdr.seq.toNat x.e then some p else some q) none

/-- Deliver held packets while the lowest held SEQ equals E; the timer stops with an empty buffer (R183). -/
def c0Drain (g : Gen) (l j : Nat) : Nat → Mach → Mach
  | 0, m => m
  | fuel + 1, m =>
    let x := c0Flow m l j
    match lowestHeld x with
    | none => updC0 m l j fun x => { x with timer := none }
    | some p =>
      if p.hdr.seq.toNat ≠ x.e then m
      else
        let m := updC0 m l j fun x => { x with held := x.held.erase p, e := (x.e + 1) % 65536 }
        c0Drain g l j fuel (deliverAny g (m.cntN g l 0x0F) l p false)

/-- The hold timer reaches TWIN_WINDOW (R184). -/
def c0Expire (g : Gen) (m : Mach) (l j w : Nat) : Mach :=
  let x := c0Flow m l j
  match lowestHeld x with
  | none => updC0 m l j fun x => { x with timer := none }
  | some p =>
    let m := m.addWrap g (c0Key l 4) (seqDist p.hdr.seq.toNat x.e)
    let m := logEv g m (logN l) 0x17 0 p.hdr.src x.e
    let m := c0Drain g l j 5 (updC0 m l j fun x => { x with e := p.hdr.seq.toNat })
    let now := m.now
    updC0 m l j fun x => { x with timer := if x.held.isEmpty then none else some (now + twinWindow w) }

/-- A thread whose miss count has reached TWIN_MISS_LIMIT is reported, once until its count is cleared (R187, R202). -/
def c0Report (g : Gen) (m : Mach) (l j : Nat) (src : BitVec 16) (threadB : Bool) : Mach :=
  let x := c0Flow m l j
  if m.reg g (key 0x3100 0x0B) ≤ (if threadB then x.missB else x.missA) && !(if threadB then x.downB else x.downA) then
    let m := updC0 m l j fun x => if threadB then { x with downB := true } else { x with downA := true }
    logEv g (m.orReg g (key 0x3100 6) 8) (logN l) 0x18 0 src threadB.toNat
  else m

/-- The twin of an awaited copy did not come within TWIN_WINDOW: the other thread misses one (R187). -/
def c0Miss (g : Gen) (m : Mach) (l j : Nat) (src : BitVec 16) (a : Nat × Bool × Nat) : Mach :=
  let m := updC0 m l j fun x =>
    { x with awaited := x.awaited.erase a, missA := x.missA + a.2.1.toNat, missB := x.missB + (!a.2.1).toNat }
  c0Report g m l j src (!a.2.1)

/-- Every wait for a twin that has ended by now is a miss (R187). -/
def c0Settle (g : Gen) (m : Mach) (l j : Nat) (src : BitVec 16) : Mach :=
  ((c0Flow m l j).awaited.filter fun a => a.2.2 < m.now).foldl (fun m a => c0Miss g m l j src a) m

/-- A good copy clears its thread's miss count, and waits for its twin or is the twin awaited (R187); TWIN_MISS_LIMIT is judged
as it stands now (R202). -/
def c0Seen (g : Gen) (m : Mach) (l j w : Nat) (p : Pkt) (accepted : Bool) : Mach :=
  let b := p.hdr.rsvId.toNat == rsvB w && rsvB w != 0
  let s := p.hdr.seq.toNat
  let until_ := m.now + twinWindow w
  let m := updC0 m l j fun x =>
    let x := if b then { x with missB := 0, downB := false } else { x with missA := 0, downA := false }
    match x.awaited.find? fun a => a.1 == s && a.2.1 == !b with
    | some a => { x with awaited := x.awaited.erase a }
    | none => if accepted && rsvB w ≠ 0 then { x with awaited := x.awaited ++ [(s, b, until_)] } else x
  c0Report g m l j p.hdr.src (!b)

/-- A good copy by the table of R183. -/
def c0Classify (g : Gen) (l j w : Nat) : Nat → Mach → Pkt → Mach
  | 0, m, _ => m
  | fuel + 1, m, p =>
    let x := c0Flow m l j
    let s := p.hdr.seq.toNat
    let d := seqDist s x.e
    let twin (m : Mach) : Mach := (c0Seen g m l j w p false).addWrap g (c0Key l 3) 1
    if 32768 ≤ d then twin m
    else if d = 0 then
      let m := updC0 (c0Seen g m l j w p true) l j fun x => { x with e := (x.e + 1) % 65536 }
      c0Drain g l j 5 (deliverAny g (m.cntN g l 0x0F) l p false)
    else if x.held.any fun q => q.hdr.seq == p.hdr.seq then twin m
    else if x.held.length < 4 then
      let now := m.now
      updC0 (c0Seen g m l j w p true) l j fun x =>
        { x with held := x.held ++ [p], timer := some (x.timer.getD (now + twinWindow w)) }
    else c0Classify g l j w fuel (c0Expire g m l j w) p

/-- A class-0 copy arrives (R183, R254). A flow without a descriptor is absent (R446). -/
def c0Arrive (g : Gen) (m : Mach) (l : Nat) (p : Pkt) : Mach :=
  match c0DstOf m l p.hdr.src p.hdr.v with
  | none => m.addWrap g (c0Key l 2) 1
  | some (j, w) =>
    if p.isBad then
      let m := if p.hdr.seq.toNat = (c0Flow m l j).e then
          ((presentedBad g m l p).map fun q => presentNow g m l ⟨q, true, none, false⟩).getD m
        else m
      m.addWrap g (c0Key l 2) 1
    else c0Classify g l j w 2 (c0Settle g m l j p.hdr.src) p

/-- TWIN_HOLD_EXPIRY (R184). -/
def twinHoldExpiry (l : Nat) (k : FlowKey) (g : Gen) (m : Mach) : Mach :=
  match c0DstOf m l k.src k.vn.toNat with
  | none => m
  | some (j, w) =>
    match (c0Flow m l j).timer with
    | none => m
    | some t => c0Expire g (m.advanceTo t) l j w

def execTwinHoldExpiry (l : Nat) (k : FlowKey) (s : State) := s.runIf (s.gen.hasNi l) (twinHoldExpiry l k)

/-- TWIN_MISS (R187): TWIN_WINDOW ends for the oldest copy whose twin was to come by the named thread. -/
def twinMiss (l : Nat) (k : FlowKey) (threadB : Bool) (g : Gen) (m : Mach) : Mach :=
  match c0DstOf m l k.src k.vn.toNat with
  | none => m
  | some (j, _) =>
    match (c0Flow m l j).awaited.find? fun a => a.2.1 != threadB with
    | none => m
    | some a => c0Miss g (m.advanceTo a.2.2) l j k.src a

def execTwinMiss (l : Nat) (k : FlowKey) (threadB : Bool) (s : State) := s.runIf (s.gen.hasNi l) (twinMiss l k threadB)

/-! ### Arrival -/

/-- A whole packet in E1 of NI l (R254, R269). While every router is STOPPED no management request comes in-band (R143). It is taken out of those that came over the ejection link, where it is one
of them; its flits then owe credits. -/
def arrive (l : Nat) (p : Pkt) (g : Gen) (m : Mach) : Mach :=
  if l = 0 && isManagement p.hdr.c && m.allStopped g (unitsOf g 1) then m
  else
  let cred := (m.ni l).rx.arrived.contains p
  let m := m.updRx l fun x => { x with arrived := x.arrived.erase p }
  let h := p.hdr
  if h.k = 0 then c0Arrive g m l p
  else if (m.ni l).ep.waiting then ejectCredits m l p cred
  else if isInternal h.c || Hdr.isGenerated h then takeInternal g m l p cred
  else if h.mcast then classifyMcast g m l p cred
  else classify g m l p cred

/-- An arriving-packet row of the CMDs from `lo` to `hi`. -/
def State.arrival (s : State) (lo hi l : Nat) (p : Pkt) : Host.Outcome State Fault Refusal :=
  s.runPkt (s.gen.hasNi l) (between lo hi p.hdr.c) (arrive l p)

/-- As `arrive`; an uncorrectable error in the NI's state on the way resets the NI (R447). -/
def arriveChecked (l : Nat) (p : Pkt) (stateErr : Bool) (g : Gen) (m : Mach) : Mach :=
  if stateErr then niStateEcc g m l else arrive l p g m

/-- R465. -/
def execMgRead (l : Nat) (p : Pkt) (s : State) := s.arrival 0xA0 0xA0 l p
/-- R465. -/
def execMgWrite (l : Nat) (p : Pkt) (s : State) := s.arrival 0xA1 0xA1 l p
/-- R465. -/
def execMgInfo (l : Nat) (p : Pkt) (s : State) := s.arrival 0xA2 0xA2 l p
/-- R465, R470. -/
def execMgVpSquash (l : Nat) (p : Pkt) (s : State) := s.arrival 0xA3 0xA3 l p
/-- R465. -/
def execMgReservedCmd (l : Nat) (p : Pkt) (s : State) := s.arrival 0xA4 0xAF l p
/-- R500. -/
def execHoopReceive (l : Nat) (p : Pkt) (s : State) := s.arrival 0xF3 0xF3 l p
/-- R426. -/
def execWake (l : Nat) (p : Pkt) (s : State) := s.arrival 0xF2 0xF2 l p
/-- R51, R76. -/
def execRd (l : Nat) (p : Pkt) (s : State) := s.arrival 0x00 0x00 l p
/-- R51, R76. -/
def execRdIo (l : Nat) (p : Pkt) (s : State) := s.arrival 0x01 0x01 l p
/-- R51, R76. -/
def execRdCfg (l : Nat) (p : Pkt) (s : State) := s.arrival 0x02 0x02 l p
/-- R300, R305. -/
def execRdScratch (l : Nat) (p : Pkt) (s : State) := s.arrival 0x03 0x03 l p
/-- R51, R76. -/
def execWrNp (l : Nat) (p : Pkt) (s : State) := s.arrival 0x20 0x20 l p
/-- R51, R76. -/
def execWrNpPart (l : Nat) (p : Pkt) (s : State) := s.arrival 0x22 0x22 l p
/-- R51, R76. -/
def execWrPPart (l : Nat) (p : Pkt) (s : State) := s.arrival 0x23 0x23 l p
/-- R51, R76. -/
def execWrInlineP (l : Nat) (p : Pkt) (s : State) := s.arrival 0x24 0x24 l p
/-- R51, R76. -/
def execWrCfg (l : Nat) (p : Pkt) (s : State) := s.arrival 0x25 0x25 l p
/-- R300, R305. -/
def execWrScratch (l : Nat) (p : Pkt) (s : State) := s.arrival 0x26 0x26 l p
/-- R330, R332. -/
def execAtAdd (l : Nat) (p : Pkt) (s : State) := s.arrival 0x40 0x40 l p
/-- R330, R332. -/
def execAtSwap (l : Nat) (p : Pkt) (s : State) := s.arrival 0x41 0x41 l p
/-- R330, R332. -/
def execAtCas (l : Nat) (p : Pkt) (s : State) := s.arrival 0x42 0x42 l p
/-- R330, R332. -/
def execAtSmin (l : Nat) (p : Pkt) (s : State) := s.arrival 0x43 0x43 l p
/-- R330, R332. -/
def execAtSmax (l : Nat) (p : Pkt) (s : State) := s.arrival 0x44 0x44 l p
/-- R330, R332. -/
def execAtUmin (l : Nat) (p : Pkt) (s : State) := s.arrival 0x45 0x45 l p
/-- R330, R332. -/
def execAtUmax (l : Nat) (p : Pkt) (s : State) := s.arrival 0x46 0x46 l p
/-- R330, R332. -/
def execAtAnd (l : Nat) (p : Pkt) (s : State) := s.arrival 0x47 0x47 l p
/-- R330, R332. -/
def execAtOr (l : Nat) (p : Pkt) (s : State) := s.arrival 0x48 0x48 l p
/-- R330, R332. -/
def execAtXor (l : Nat) (p : Pkt) (s : State) := s.arrival 0x49 0x49 l p
/-- R330, R332. -/
def execAtFadd (l : Nat) (p : Pkt) (s : State) := s.arrival 0x4A 0x4A l p
/-- R337. -/
def execCollContrib (l : Nat) (p : Pkt) (s : State) := s.arrival 0x50 0x50 l p
/-- R340. -/
def execCollResult (l : Nat) (p : Pkt) (s : State) := s.arrival 0x51 0x51 l p
/-- R317, R319. -/
def execEngInvoke (l : Nat) (p : Pkt) (s : State) := s.arrival 0x52 0x52 l p
/-- R315, R317. -/
def execEngEvent (l : Nat) (p : Pkt) (s : State) := s.arrival 0x53 0x53 l p
/-- R57. -/
def execCohN (l : Nat) (p : Pkt) (s : State) := s.arrival 0x60 0x7F l p
/-- R51. -/
def execMsg (l : Nat) (p : Pkt) (s : State) := s.arrival 0x80 0x80 l p
/-- R51. -/
def execMsgInline (l : Nat) (p : Pkt) (s : State) := s.arrival 0x81 0x81 l p
/-- R51. -/
def execMsgIntr (l : Nat) (p : Pkt) (s : State) := s.arrival 0x82 0x82 l p
/-- R56, R253, R444. -/
def execRsp (l : Nat) (p : Pkt) (s : State) := s.arrival 0x90 0x90 l p
/-- R56, R251. -/
def execRspData (l : Nat) (p : Pkt) (s : State) := s.arrival 0x91 0x91 l p
/-- R56. -/
def execRspDataInline (l : Nat) (p : Pkt) (s : State) := s.arrival 0x92 0x92 l p
/-- R55, R466. -/
def execRspMgmt (l : Nat) (p : Pkt) (s : State) := s.arrival 0x93 0x93 l p
/-- R262. -/
def execPostedAck (l : Nat) (p : Pkt) (s : State) := s.arrival 0xF0 0xF0 l p
/-- R78. -/
def execNackRetry (l : Nat) (p : Pkt) (s : State) := s.arrival 0xF1 0xF1 l p
/-- R137. -/
def execPartialDelivery (l : Nat) (p : Pkt) (s : State) := s.arrival 0xF4 0xF4 l p

/-- WR_P (R76, R447). -/
def execWrP (l : Nat) (p : Pkt) (stateErr : Bool) (s : State) :=
  s.runPkt (s.gen.hasNi l) (between 0x21 0x21 p.hdr.c) (arriveChecked l p stateErr)

end Sys2Proof.Machine
end

