-- ==== Sys2Proof/Machine/Timers.lean ====
section
/-! DEFINITION. The timers of an NI that end in an effect of their own: NP_TIMEOUT (R253, R262), RETX_TIMEOUT (R263), the repeat
of a NACK (R77), ACK_DELAY (R260) and FLOW_IDLE_TIME (R80, R261, R265). -/

namespace Sys2Proof.Machine

open Sys2Proof

/-- A completion for a tag has reached the NI: in the fc of its first NP_TIMEOUT expiry it wins, and the timer is cancelled
(R253). -/
def completionHere (m : Mach) (l tag : Nat) : Bool :=
  (m.ni l).rx.arrived.any fun p => isResponse p.hdr.c && p.hdr.tag.toNat == tag

/-- NP_TIMEOUT_FIRST (R253): a completion with TIMEOUT; the tag and the retransmit copy stay. -/
def npTimeoutFirst (l tag : Nat) (g : Gen) (m : Mach) : Mach :=
  match (m.ni l).tab.tags.get? tag with
  | none => m
  | some e =>
    if e.fired || tagHeld m l tag || completionHere m l tag then m
    else
      let m := m.advanceTo e.deadline
      let d := m.now + npTimeout g m l
      let m := logEv g m (logN l) 0x07 0 e.hdr.dest tag
      let m := m.updTab l fun t => { t with tags := t.tags.put tag { e with fired := true, deadline := d } }
      tagOutcome g m l e (ownRsp g m l e.hdr stTimeout) false

def execNpTimeoutFirst (l tag : Nat) (s : State) := s.runIf (s.gen.hasNi l) (npTimeoutFirst l tag)

/-- NP_TIMEOUT_SECOND (R253, R262): the tag and the retransmit copy are freed. -/
def npTimeoutSecond (l tag : Nat) (_g : Gen) (m : Mach) : Mach :=
  match (m.ni l).tab.tags.get? tag with
  | none => m
  | some e =>
    if !e.fired then m
    else dropRetx (freeTag (m.advanceTo e.deadline) l tag) l fun p => p.hdr.flow == e.hdr.flow && p.hdr.seq == e.hdr.seq

def execNpTimeoutSecond (l tag : Nat) (s : State) := s.runIf (s.gen.hasNi l) (npTimeoutSecond l tag)

/-- RETX_TIMEOUT (R263): the oldest held posted packet of the flow was not acknowledged. One that already waits to be sent
again has no interval running. -/
def retxTimeout (l : Nat) (k : FlowKey) (g : Gen) (m : Mach) : Mach :=
  match (heldOf (m.ni l) k).find? fun x => x.posted with
  | none => m
  | some x => if (m.ni l).tx.retxQ.contains x.pkt then m else retransmit g (m.advanceTo x.deadline) l k x.pkt.hdr.seq.toNat 2

def execRetxTimeout (l : Nat) (k : FlowKey) (s : State) := s.runIf (s.gen.hasNi l) (retxTimeout l k)

/-- The destination entry of a flow. -/
def dstOf (m : Mach) (l : Nat) (k : FlowKey) : Option DstFlow := (m.ni l).tab.dst.find? fun f => f.key == k

/-- NACK_REPEAT_TIME (R77). -/
def nackRepeat (l : Nat) (k : FlowKey) (g : Gen) (m : Mach) : Mach :=
  match dstOf m l k with
  | none => m
  | some f =>
    match f.nack with
    | none => m
    | some d => raiseNack g (m.advanceTo d) l f 3

def execNackRepeatTime (l : Nat) (k : FlowKey) (s : State) := s.runIf (s.gen.hasNi l) (nackRepeat l k)

/-- A packet of the flow still waits in an ejection FIFO (R260). -/
def flowWaits (m : Mach) (l : Nat) (k : FlowKey) : Bool :=
  (m.ni l).ep.eject.any fun (_, q) => q.any fun e => e.req.isNone && e.pkt.hdr.flow == k

/-- ACK_DELAY (R260): the oldest run is acknowledged once no NACK is outstanding and no packet of the flow waits. -/
def ackDelay (l : Nat) (k : FlowKey) (g : Gen) (m : Mach) : Mach :=
  match dstOf m l k with
  | none => m
  | some f =>
    if f.nack.isSome || flowWaits m l k then m
    else match f.ended with
      | (first, n, d) :: rest =>
        let m := m.advanceTo d
        sendAck g (putDst m l { f with ended := rest }) l k first n
      | [] =>
        if f.run = 0 then m
        else
          let m := m.advanceTo f.runDeadline
          sendAck g (putDst m l { f with run := 0 }) l k ((f.e + 65536 - f.run) % 65536) f.run

def execAckDelay (l : Nat) (k : FlowKey) (s : State) := s.runIf (s.gen.hasNi l) (ackDelay l k)

/-- FLOW_IDLE_TIME (R80, R261, R265): a destination discards its state of the flow; a source frees its entry, and a closed
flow reopens. -/
def flowIdleTime (l : Nat) (source : Bool) (k : FlowKey) (g : Gen) (m : Mach) : Mach :=
  let idle := flowIdle g m l
  if source then
    match (m.ni l).tab.src.find? fun f => f.key == k with
    | none => m
    | some f =>
      if flowHolds g m l k && !f.closed then m else purgeSrc g (m.advanceTo (f.lastInj + idle)) l
  else
    match dstOf m l k with
    | none => m
    | some f => (m.advanceTo (f.lastRx + idle)).updTab l fun t => { t with dst := t.dst.filter fun x => x.key != k }

def execFlowIdleTime (l : Nat) (source : Bool) (k : FlowKey) (s : State) := s.runIf (s.gen.hasNi l) (flowIdleTime l source k)

end Sys2Proof.Machine
end

