-- ==== Sys2Proof/Machine/TestAccess.lean ====
section
/-! DEFINITION. The IEEE 1500 wrapper (R517, R518). `Shuttle.wrapper` holds its instruction: 0 WS_BYPASS, 1 WS_EXTEST,
2 WS_INTEST, 3 HY_MBIST, 4 HY_FABRIC_BIST, 5 HY_MEM_READ. -/

namespace Sys2Proof.Machine

open Sys2Proof

/-- The instance is in reset, or every function is STOPPED (R517). -/
def testable (g : Gen) (m : Mach) : Bool := !m.sh.porN || (m.allStopped g (membersOf g 0x7000) && m.prk.st == .idle)

/-- An instruction that only an instance reset leaves (R517). -/
def wrapperLocked (m : Mach) : Bool := 2 ≤ m.sh.wrapper

/-- Load an instruction other than WS_BYPASS and WS_EXTEST. -/
def loadTest (g : Gen) (m : Mach) (n : Nat) (f : Mach → Mach) : Mach :=
  if testable g m && (!wrapperLocked m || m.sh.wrapper == n) then f (m.updSh fun s => { s with wrapper := n }) else m

/-- WS_EXTEST. -/
def wsExtest (_g : Gen) (m : Mach) : Mach := if wrapperLocked m then m else m.updSh fun s => { s with wrapper := 1 }
def execWsExtest (s : State) := s.run wsExtest

/-- WS_INTEST. -/
def wsIntest (g : Gen) (m : Mach) : Mach := loadTest g m 2 id
def execWsIntest (s : State) := s.run wsIntest

/-- The units whose memories HY_MBIST reports on, by FUNC_ID. -/
def testedUnits (g : Gen) : List Nat := unitsOf g 1 ++ unitsOf g 3 ++ unitsOf g 4 ++ unitsOf g 5

/-- HY_MBIST: a report for the memories of every unit, whose verdict is a free value (log 8). -/
def hyMbist (g : Gen) (m : Mach) : Mach :=
  loadTest g m 3 fun m => (testedUnits g).foldl (fun m u => { m.emit (.test u (Config.mbistPass m.fresh).toNat) with fresh := m.fresh + 1 }) m

def execHyMbist (s : State) := s.run hyMbist

/-- HY_FABRIC_BIST: every router in cyclic mode with ALLOC_STATUS.CAUSE = 1. -/
def hyFabricBist (g : Gen) (m : Mach) : Mach :=
  loadTest g m 4 fun m => g.routers.foldl (fun m r => m.updR r fun x => { x with cyclic := true, cause := 1, want := none }) m

def execHyFabricBist (s : State) := s.run hyFabricBist

/-- The memories R518 protects, as this model numbers them (log 42): 0 the dictionary store by object key, 0x3000 + L the guard
regions of NI L by set * 256 + place, 0x4000 + i scratch and 0x8000 + i instruction store of engine i by byte address. -/
def protectedMem (g : Gen) (m : Mach) (mem addr : Nat) : Option Nat :=
  let n := mem % 4096
  if mem = 0 then some (m.reg g addr)
  else match mem / 4096 with
    | 3 => if g.hasNi n then
        some ((if addr < 256 then (m.ni n).guard.setA else (m.ni n).guard.setB).getD (addr % 256) 0) else none
    | 4 => if g.hasEngine n then some ((m.eng n).load addr 1) else none
    | 8 => if g.hasEngine n then some (Mem.read (m.eng n).imem addr 1) else none
    | _ => none

/-- HY_MEM_READ (R517, R518): a protected memory reads zeros unless hy_lifecycle reads OPEN. How the other memories lie out
is not stated: what is read of them is a free value (log 42). -/
def hyMemRead (mem addr : Nat) (g : Gen) (m : Mach) : Mach :=
  loadTest g m 5 fun m =>
    match protectedMem g m mem addr with
    | some v => m.emit (.test (mem * 2 ^ 32 + addr) (if m.lifecycleOpen then v else 0))
    | none => { m.emit (.test (mem * 2 ^ 32 + addr) (Config.memImage mem addr m.fresh)) with fresh := m.fresh + 1 }

def execHyMemRead (mem addr : Nat) (s : State) := s.run (hyMemRead mem addr)

end Sys2Proof.Machine
end

