-- ==== Sys2Proof/Machine/Dispatch.lean ====
section
/-! DEFINITION. One arm per command: the call of its meaning. -/

namespace Sys2Proof.Machine

open Sys2Proof

def exec (i : Instr) (s : State) : Host.Outcome State Fault Refusal :=
  match i with
  | .porAssert => Sys2Proof.Machine.execPorAssert s
  | .porRelease => Sys2Proof.Machine.execPorRelease s
  | .startupStep => Sys2Proof.Machine.execStartupStep s
  | .imageWait => Sys2Proof.Machine.execImageWait s
  | .imageChunk head offset data => Sys2Proof.Machine.execImageChunk head offset data s
  | .imageEnd head total => Sys2Proof.Machine.execImageEnd head total s
  | .imageAck head result => Sys2Proof.Machine.execImageAck head result s
  | .mgReq msg => Sys2Proof.Machine.execMgReq msg s
  | .getVendorDefinedMessageSupport => Sys2Proof.Machine.execGetVendorDefinedMessageSupport s
  | .mgForwardTimeout id => Sys2Proof.Machine.execMgForwardTimeout id s
  | .mgRead l p => Sys2Proof.Machine.execMgRead l p s
  | .mgWrite l p => Sys2Proof.Machine.execMgWrite l p s
  | .mgInfo l p => Sys2Proof.Machine.execMgInfo l p s
  | .mgVpSquash l p => Sys2Proof.Machine.execMgVpSquash l p s
  | .mgReservedCmd l p => Sys2Proof.Machine.execMgReservedCmd l p s
  | .broadcastAnswer id => Sys2Proof.Machine.execBroadcastAnswer id s
  | .registerWrite index sub size value => Sys2Proof.Machine.execRegisterWrite index sub size value s
  | .stop funcId => Sys2Proof.Machine.execStop funcId s
  | .start funcId => Sys2Proof.Machine.execStart funcId s
  | .store v => Sys2Proof.Machine.execStore v s
  | .storeTimeout => Sys2Proof.Machine.execStoreTimeout s
  | .restoreDefaults funcId => Sys2Proof.Machine.execRestoreDefaults funcId s
  | .routerStopped r => Sys2Proof.Machine.execRouterStopped r s
  | .drainTimeout r => Sys2Proof.Machine.execDrainTimeout r s
  | .routerRunning r selfTest => Sys2Proof.Machine.execRouterRunning r selfTest s
  | .niStopped l => Sys2Proof.Machine.execNiStopped l s
  | .niDrainTimeout l => Sys2Proof.Machine.execNiDrainTimeout l s
  | .portStopped p => Sys2Proof.Machine.execPortStopped p s
  | .engDrainTimeout en => Sys2Proof.Machine.execEngDrainTimeout en s
  | .cyclicModeChange r => Sys2Proof.Machine.execCyclicModeChange r s
  | .guardSwap v => Sys2Proof.Machine.execGuardSwap v s
  | .guardSwapEffect l => Sys2Proof.Machine.execGuardSwapEffect l s
  | .arm => Sys2Proof.Machine.execArm s
  | .disarm => Sys2Proof.Machine.execDisarm s
  | .prickingActivation => Sys2Proof.Machine.execPrickingActivation s
  | .hoop t => Sys2Proof.Machine.execHoop t s
  | .hoopReceive l p => Sys2Proof.Machine.execHoopReceive l p s
  | .hoopSnapshot => Sys2Proof.Machine.execHoopSnapshot s
  | .wakeSend v => Sys2Proof.Machine.execWakeSend v s
  | .wake l p => Sys2Proof.Machine.execWake l p s
  | .wakeHoldExpiry d => Sys2Proof.Machine.execWakeHoldExpiry d s
  | .retrain p => Sys2Proof.Machine.execRetrain p s
  | .disable p => Sys2Proof.Machine.execDisable p s
  | .enable p => Sys2Proof.Machine.execEnable p s
  | .freeze l v => Sys2Proof.Machine.execFreeze l v s
  | .thaw l v => Sys2Proof.Machine.execThaw l v s
  | .save l v => Sys2Proof.Machine.execSave l v s
  | .restore l v => Sys2Proof.Machine.execRestore l v s
  | .reset l v => Sys2Proof.Machine.execReset l v s
  | .vpFrozen l => Sys2Proof.Machine.execVpFrozen l s
  | .vpFreezeTimeout l => Sys2Proof.Machine.execVpFreezeTimeout l s
  | .squashRoundTimeout l => Sys2Proof.Machine.execSquashRoundTimeout l s
  | .vpResetDone l => Sys2Proof.Machine.execVpResetDone l s
  | .vpEnable l v => Sys2Proof.Machine.execVpEnable l v s
  | .vpDisable l v => Sys2Proof.Machine.execVpDisable l v s
  | .groupEnable g => Sys2Proof.Machine.execGroupEnable g s
  | .groupDisable g => Sys2Proof.Machine.execGroupDisable g s
  | .groupDrained g => Sys2Proof.Machine.execGroupDrained g s
  | .startCtx en entry => Sys2Proof.Machine.execStartCtx en entry s
  | .denyClear l => Sys2Proof.Machine.execDenyClear l s
  | .logClear log => Sys2Proof.Machine.execLogClear log s
  | .pvRelease l => Sys2Proof.Machine.execPvRelease l s
  | .shuttleTick measured storeError => Sys2Proof.Machine.execShuttleTick measured storeError s
  | .tableRepair e => Sys2Proof.Machine.execTableRepair e s
  | .ageMeasure d degrade => Sys2Proof.Machine.execAgeMeasure d degrade s
  | .logEventArrival logs => Sys2Proof.Machine.execLogEventArrival logs s
  | .ingressPacket l q => Sys2Proof.Machine.execIngressPacket l q s
  | .injectionAdmit l e stateErr => Sys2Proof.Machine.execInjectionAdmit l e stateErr s
  | .heldStoreRelease l => Sys2Proof.Machine.execHeldStoreRelease l s
  | .c0Start l rsv => Sys2Proof.Machine.execC0Start l rsv s
  | .egressCredit l ch n => Sys2Proof.Machine.execEgressCredit l ch n s
  | .egressPacketStart l => Sys2Proof.Machine.execEgressPacketStart l s
  | .agentRdyRise l => Sys2Proof.Machine.execAgentRdyRise l s
  | .agentRdyFall l => Sys2Proof.Machine.execAgentRdyFall l s
  | .niOpenWaitEnd l => Sys2Proof.Machine.execNiOpenWaitEnd l s
  | .rd l p => Sys2Proof.Machine.execRd l p s
  | .rdIo l p => Sys2Proof.Machine.execRdIo l p s
  | .rdCfg l p => Sys2Proof.Machine.execRdCfg l p s
  | .rdScratch l p => Sys2Proof.Machine.execRdScratch l p s
  | .wrNp l p => Sys2Proof.Machine.execWrNp l p s
  | .wrP l p stateErr => Sys2Proof.Machine.execWrP l p stateErr s
  | .wrNpPart l p => Sys2Proof.Machine.execWrNpPart l p s
  | .wrPPart l p => Sys2Proof.Machine.execWrPPart l p s
  | .wrInlineP l p => Sys2Proof.Machine.execWrInlineP l p s
  | .wrCfg l p => Sys2Proof.Machine.execWrCfg l p s
  | .wrScratch l p => Sys2Proof.Machine.execWrScratch l p s
  | .atAdd l p => Sys2Proof.Machine.execAtAdd l p s
  | .atSwap l p => Sys2Proof.Machine.execAtSwap l p s
  | .atCas l p => Sys2Proof.Machine.execAtCas l p s
  | .atSmin l p => Sys2Proof.Machine.execAtSmin l p s
  | .atSmax l p => Sys2Proof.Machine.execAtSmax l p s
  | .atUmin l p => Sys2Proof.Machine.execAtUmin l p s
  | .atUmax l p => Sys2Proof.Machine.execAtUmax l p s
  | .atAnd l p => Sys2Proof.Machine.execAtAnd l p s
  | .atOr l p => Sys2Proof.Machine.execAtOr l p s
  | .atXor l p => Sys2Proof.Machine.execAtXor l p s
  | .atFadd l p => Sys2Proof.Machine.execAtFadd l p s
  | .atomicLockAcquire en entry => Sys2Proof.Machine.execAtomicLockAcquire en entry s
  | .collContrib l p => Sys2Proof.Machine.execCollContrib l p s
  | .collResult l p => Sys2Proof.Machine.execCollResult l p s
  | .collTimeout en desc => Sys2Proof.Machine.execCollTimeout en desc s
  | .engInvoke l p => Sys2Proof.Machine.execEngInvoke l p s
  | .engEvent l p => Sys2Proof.Machine.execEngEvent l p s
  | .contextAllocate en => Sys2Proof.Machine.execContextAllocate en s
  | .contextEnd en c => Sys2Proof.Machine.execContextEnd en c s
  | .cohN l p => Sys2Proof.Machine.execCohN l p s
  | .msg l p => Sys2Proof.Machine.execMsg l p s
  | .msgInline l p => Sys2Proof.Machine.execMsgInline l p s
  | .msgIntr l p => Sys2Proof.Machine.execMsgIntr l p s
  | .rsp l p => Sys2Proof.Machine.execRsp l p s
  | .rspData l p => Sys2Proof.Machine.execRspData l p s
  | .rspDataInline l p => Sys2Proof.Machine.execRspDataInline l p s
  | .rspMgmt l p => Sys2Proof.Machine.execRspMgmt l p s
  | .postedAck l p => Sys2Proof.Machine.execPostedAck l p s
  | .nackRetry l p => Sys2Proof.Machine.execNackRetry l p s
  | .partialDelivery l p => Sys2Proof.Machine.execPartialDelivery l p s
  | .npTimeoutFirst l tag => Sys2Proof.Machine.execNpTimeoutFirst l tag s
  | .npTimeoutSecond l tag => Sys2Proof.Machine.execNpTimeoutSecond l tag s
  | .retxTimeout l k => Sys2Proof.Machine.execRetxTimeout l k s
  | .nackRepeatTime l k => Sys2Proof.Machine.execNackRepeatTime l k s
  | .ackDelay l k => Sys2Proof.Machine.execAckDelay l k s
  | .flowIdleTime l source k => Sys2Proof.Machine.execFlowIdleTime l source k s
  | .mEjectTimeout l => Sys2Proof.Machine.execMEjectTimeout l s
  | .twinHoldExpiry l k => Sys2Proof.Machine.execTwinHoldExpiry l k s
  | .twinMiss l k threadB => Sys2Proof.Machine.execTwinMiss l k threadB s
  | .linkFlitReceive e w t => Sys2Proof.Machine.execLinkFlitReceive e w t s
  | .linkResetReopen e => Sys2Proof.Machine.execLinkResetReopen e s
  | .routerAllocation r parity => Sys2Proof.Machine.execRouterAllocation r parity s
  | .linkPacketSelect r p => Sys2Proof.Machine.execLinkPacketSelect r p s
  | .residueTimeout r p vc => Sys2Proof.Machine.execResidueTimeout r p vc s
  | .routeStateArrival r => Sys2Proof.Machine.execRouteStateArrival r s
  | .dtAlphaArrival r => Sys2Proof.Machine.execDtAlphaArrival r s
  | .classWeightArrival e => Sys2Proof.Machine.execClassWeightArrival e s
  | .superframeSend p => Sys2Proof.Machine.execSuperframeSend p s
  | .frameReceive p f => Sys2Proof.Machine.execFrameReceive p f s
  | .nakRepeat p ch => Sys2Proof.Machine.execNakRepeat p ch s
  | .releaseStage p ch => Sys2Proof.Machine.execReleaseStage p ch s
  | .c0Release p ch => Sys2Proof.Machine.execC0Release p ch s
  | .detectTimeout p => Sys2Proof.Machine.execDetectTimeout p s
  | .train r => Sys2Proof.Machine.execTrain r s
  | .laneTrainDone p x => Sys2Proof.Machine.execLaneTrainDone p x s
  | .param r x => Sys2Proof.Machine.execParam r x s
  | .paramRepeat p => Sys2Proof.Machine.execParamRepeat p s
  | .retrainReq r cause => Sys2Proof.Machine.execRetrainReq r cause s
  | .linkDown r => Sys2Proof.Machine.execLinkDown r s
  | .sidebandRepeat t => Sys2Proof.Machine.execSidebandRepeat t s
  | .serdesUpChange p b up => Sys2Proof.Machine.execSerdesUpChange p b up s
  | .prkDigest r digest => Sys2Proof.Machine.execPrkDigest r digest s
  | .pwrReq r code => Sys2Proof.Machine.execPwrReq r code s
  | .linkIdleThreshold p code => Sys2Proof.Machine.execLinkIdleThreshold p code s
  | .timeAdv r x => Sys2Proof.Machine.execTimeAdv r x s
  | .timeAdvSend => Sys2Proof.Machine.execTimeAdvSend s
  | .timeExchangeStart => Sys2Proof.Machine.execTimeExchangeStart s
  | .tsValues r t2 t3 => Sys2Proof.Machine.execTsValues r t2 t3 s
  | .tsExchangeTimeout => Sys2Proof.Machine.execTsExchangeTimeout s
  | .holdoverEntry => Sys2Proof.Machine.execHoldoverEntry s
  | .holdoverLimit => Sys2Proof.Machine.execHoldoverLimit s
  | .conflictClear => Sys2Proof.Machine.execConflictClear s
  | .ppsEdge => Sys2Proof.Machine.execPpsEdge s
  | .todLatch ns => Sys2Proof.Machine.execTodLatch ns s
  | .ppsLoss => Sys2Proof.Machine.execPpsLoss s
  | .slotMisalign => Sys2Proof.Machine.execSlotMisalign s
  | .bridgeFarReset d => Sys2Proof.Machine.execBridgeFarReset d s
  | .bridgeReopen d => Sys2Proof.Machine.execBridgeReopen d s
  | .bridgeDead d => Sys2Proof.Machine.execBridgeDead d s
  | .pwrAck d code => Sys2Proof.Machine.execPwrAck d code s
  | .pwrAckTimeout d => Sys2Proof.Machine.execPwrAckTimeout d s
  | .domainIdleThreshold d => Sys2Proof.Machine.execDomainIdleThreshold d s
  | .domainCloseDrained d => Sys2Proof.Machine.execDomainCloseDrained d s
  | .closeTimeout d => Sys2Proof.Machine.execCloseTimeout d s
  | .wakeSequenceStart => Sys2Proof.Machine.execWakeSequenceStart s
  | .domainWakeDone d => Sys2Proof.Machine.execDomainWakeDone d s
  | .lifecycleChange v => Sys2Proof.Machine.execLifecycleChange v s
  | .contextTimerFire en c => Sys2Proof.Machine.execContextTimerFire en c s
  | .watchdog en c => Sys2Proof.Machine.execWatchdog en c s
  | .alu en c => Sys2Proof.Machine.execAlu en c s
  | .addi en c => Sys2Proof.Machine.execAddi en c s
  | .andi en c => Sys2Proof.Machine.execAndi en c s
  | .ori en c => Sys2Proof.Machine.execOri en c s
  | .xori en c => Sys2Proof.Machine.execXori en c s
  | .shi en c => Sys2Proof.Machine.execShi en c s
  | .lui en c => Sys2Proof.Machine.execLui en c s
  | .slti en c => Sys2Proof.Machine.execSlti en c s
  | .beq en c => Sys2Proof.Machine.execBeq en c s
  | .bne en c => Sys2Proof.Machine.execBne en c s
  | .blt en c => Sys2Proof.Machine.execBlt en c s
  | .bge en c => Sys2Proof.Machine.execBge en c s
  | .bltu en c => Sys2Proof.Machine.execBltu en c s
  | .bgeu en c => Sys2Proof.Machine.execBgeu en c s
  | .jal en c => Sys2Proof.Machine.execJal en c s
  | .jalr en c => Sys2Proof.Machine.execJalr en c s
  | .ld en c => Sys2Proof.Machine.execLd en c s
  | .lds en c => Sys2Proof.Machine.execLds en c s
  | .st en c => Sys2Proof.Machine.execSt en c s
  | .wld en c => Sys2Proof.Machine.execWld en c s
  | .wst en c => Sys2Proof.Machine.execWst en c s
  | .xtr en c => Sys2Proof.Machine.execXtr en c s
  | .spl en c => Sys2Proof.Machine.execSpl en c s
  | .wget en c => Sys2Proof.Machine.execWget en c s
  | .wput en c => Sys2Proof.Machine.execWput en c s
  | .wop en c => Sys2Proof.Machine.execWop en c s
  | .send en c => Sys2Proof.Machine.execSend en c s
  | .sendl en c => Sys2Proof.Machine.execSendl en c s
  | .recv en c => Sys2Proof.Machine.execRecv en c s
  | .finish en c => Sys2Proof.Machine.execFinish en c s
  | .mrd en c => Sys2Proof.Machine.execMrd en c s
  | .mwr en c => Sys2Proof.Machine.execMwr en c s
  | .mamo en c => Sys2Proof.Machine.execMamo en c s
  | .mrds en c => Sys2Proof.Machine.execMrds en c s
  | .mwait en c => Sys2Proof.Machine.execMwait en c s
  | .wred en c => Sys2Proof.Machine.execWred en c s
  | .contrib en c => Sys2Proof.Machine.execContrib en c s
  | .copen en c => Sys2Proof.Machine.execCopen en c s
  | .wait en c => Sys2Proof.Machine.execWait en c s
  | .evsig en c => Sys2Proof.Machine.execEvsig en c s
  | .timer en c => Sys2Proof.Machine.execTimer en c s
  | .yield en c => Sys2Proof.Machine.execYield en c s
  | .mfs en c => Sys2Proof.Machine.execMfs en c s
  | .mfc en c => Sys2Proof.Machine.execMfc en c s
  | .setEndpointId eid sender => Sys2Proof.Machine.execSetEndpointId eid sender s
  | .entdaa addr => Sys2Proof.Machine.execEntdaa addr s
  | .niRunning l => Sys2Proof.Machine.execNiRunning l s
  | .linkPwrExitDone p => Sys2Proof.Machine.execLinkPwrExitDone p s
  | .wsExtest => Sys2Proof.Machine.execWsExtest s
  | .wsIntest => Sys2Proof.Machine.execWsIntest s
  | .hyMbist => Sys2Proof.Machine.execHyMbist s
  | .hyFabricBist => Sys2Proof.Machine.execHyFabricBist s
  | .hyMemRead mem addr => Sys2Proof.Machine.execHyMemRead mem addr s

end Sys2Proof.Machine
end

