-- ==== Sys2Proof/Machine/Tick.lean ====
section
/-! DEFINITION. One fc of the slot clock, which passes when no command waits (log 3): fabric time with its slew (R151), the slot
count (R160), acceptance at the Shuttle (R458), the domain clocks (R400) and the cycle events of routers and NIs (R493, R497, R498). -/

namespace Sys2Proof.Machine

open Sys2Proof

/-! ### Cycle events -/

/-- Requests at the heads of a router's input VCs (R108, R117): output, VC there, flits. -/
def headDemands (g : Gen) (m : Mach) (r : Nat) : List (Nat × Nat × Nat) :=
  (inputsOf g r).flatMap fun p => (List.range 12).flatMap fun v =>
    match requester ((m.inp g r p).vcs.getD v []) with
    | some b => b.todo.map fun o => (o, copyVc g r p o b.pkt.hdr, b.need)
    | none => []

/-- The cycle events of router r whose conditions hold (R497). -/
def routerCycle (g : Gen) (m : Mach) (r : Nat) : List Nat :=
  let d := headDemands g m r
  let thr := m.reg g (key (0xA100 + r) 0x41)
  (if d.any fun (o, v, n) => !canReserve g m r o v n then [0x16] else []) ++
  (if d.any fun (o, v, n) => !admits g m r o v n then [0x17] else []) ++
  (if (m.rt g r).cyclic then [0x1B] else []) ++
  (if (g.portsOf r).any fun o => thr < (m.outp g r o).occ then [0x1C] else []) ++
  (if (g.portsOf r).any fun p => (List.range 12).any fun v => (m.inp g r p).occVc v == 5 then [0x1D] else []) ++
  (if (m.rt g r).fs.down then [0x1E] else []) ++ [0x1F]

/-- What the heads of the channels and of the engines' send queues lack at step 2 of R247, as event numbers. -/
def waitEvents (g : Gen) (m : Mach) (l : Nat) : List Nat :=
  let ch := (List.range 6).filterMap fun c => (((m.ni l).ep.ingress.getD c []).head?).bind fun p =>
    lacks g m l (chanOrigin l p.hdr) (splitParts p)
  let en := (sendHeads g m l).filterMap fun (i, e) => lacks g m l (.engine i e.ctx) (splitParts e.pkt)
  [0x2D, 0x2E, 0x2F, 0x30, 0x31].filter fun x => ch.contains x || en.contains x

/-- The cycle events of NI l whose conditions hold (R498). -/
def niCycle (g : Gen) (m : Mach) (l : Nat) : List Nat :=
  let n := m.ni l
  let heads := [0, 1, 2, 3, 4].filterMap fun v => (egressHead m l v).map fun x => (v, x)
  waitEvents g m l ++
  (if heads.any fun (v, x, _) => n.ep.egCr.getD v 0 < egressCost x then [0x32] else []) ++
  (if heads.any fun (_, x, mem) => !mem && !x.drop && x.pkt.hdr.np && 512 ≤ pendingUsed n then [0x33] else []) ++
  (if m.reg g (key (0xA200 + l) 0x81) < n.tab.tags.length then [0x3A] else []) ++
  (if m.reg g (key (0xA200 + l) 0x82) < retxFlits n then [0x3B] else []) ++ [0x3F]

/-- The units of domain d count one cycle. -/
def domainCycle (g : Gen) (m : Mach) (d : Nat) : Mach :=
  let m := (g.routers.filter fun r => g.region r == d).foldl (fun m r => (routerCycle g m r).foldl (fun m e => m.cntR g r e) m) m
  (g.nis.filter fun n => n.dom == d && n.loc != 0).foldl (fun m n =>
    (niCycle g m n.loc).foldl (fun m e => m.cntN g n.loc e) m) m

/-- One fc of domain d's clock: it cycles at DOMAIN_FREQ of 2,000 MHz in P0 and CLOSING, and not at all in the other states
(R417, R427, R496). -/
def domainTick (g : Gen) (m : Mach) (d : Nat) : Mach :=
  if (m.dom d).st ≠ .p0 && (m.dom d).st ≠ .closing then m
  else
    let ph := (m.dom d).phase + m.cfg g (key (0x8100 + d) 2)
    if ph < 2000 then m.updD d fun x => { x with phase := ph }
    else domainCycle g (m.updD d fun x => { x with phase := ph - 2000 }) d

/-- One fc (log 3). In reset no clock runs. -/
def tick (g : Gen) (m : Mach) : Mach :=
  if !m.sh.porN then m
  else
    let m := slotMisalign g (m.pass 1)
    let m := if m.sh.waitq.isEmpty then m else acceptWaiting g m
    g.doms.foldl (fun m d => domainTick g m d.d) m

end Sys2Proof.Machine
end

