-- ==== Sys2Proof/Safety.lean ====
section
/-! DEFINITION. The words claims are made in: what it is for a command to complete, what a counter reads after a count,
and what every state the block can be in satisfies. -/

namespace Sys2Proof.Machine

open Sys2Proof

/-- Command `i` on state `s` answers a next state; the generated description and the queue are as before, and the machine
that results satisfies `P`. -/
def Yields (i : Instr) (s : State) (P : Mach → Prop) : Prop :=
  ∃ t, exec i s = .next t ∧ t.gen = s.gen ∧ t.pending = s.pending ∧ P t.m

/-- What a counter that wraps at its own width reads after `n` more (R499). -/
def wrapped (g : Gen) (m : Mach) (k n : Nat) : Nat := (m.reg g k + n) % (((objOf g k).map (·.ty.top)).getD 0 + 1)

/-- What a counter that stops at its largest value reads after `n` more. -/
def capped (g : Gen) (m : Mach) (k n : Nat) : Nat := min (m.reg g k + n) (((objOf g k).map (·.ty.top)).getD 0)

/-- The parts of the machine. -/
inductive Part where
  | regs | inForce | time | sh | routers | nis | engines | ports | domains | prk | logs | hw | timers | wires | fresh | out
deriving DecidableEq, Repr

/-- Part `p` is the same in both machines. -/
def Part.same (p : Part) (a b : Mach) : Prop :=
  match p with
  | .regs => b.regs = a.regs
  | .inForce => b.inForce = a.inForce
  | .time => b.time = a.time
  | .sh => b.sh = a.sh
  | .routers => b.routers = a.routers
  | .nis => b.nis = a.nis
  | .engines => b.engines = a.engines
  | .ports => b.ports = a.ports
  | .domains => b.domains = a.domains
  | .prk => b.prk = a.prk
  | .logs => b.logs = a.logs
  | .hw => b.hw = a.hw
  | .timers => b.timers = a.timers
  | .wires => b.wires = a.wires
  | .fresh => b.fresh = a.fresh
  | .out => b.out = a.out

/-- Frame: every part but the listed ones is as before. -/
def changesOnly (ps : List Part) (a b : Mach) : Prop := ∀ p, p ∉ ps → p.same a b

/-- Every object but the listed ones is held as before. -/
def sameRegsBut (ks : List Nat) (a b : Mach) : Prop := ∀ k, k ∉ ks → b.regs.get? k = a.regs.get? k

/-- The engines' stores keep their canonical form. -/
def State.memWf (s : State) : Prop :=
  ∀ i e, (i, e) ∈ s.m.engines → Mem.wf e.scratch = true ∧ Mem.wf e.imem = true

end Sys2Proof.Machine
end

