-- ==== Sys2Proof/Certificates/Slice0/Obligations.lean ====
section
/-! DEFINITION. The statements for the provers. Each row's completion stands in a Prop of its own, named after the row;
an obligation gathers the rows of one shape. `m` is the machine after the command; `changesOnly` says which of its parts
the command may change. -/

namespace Sys2Proof.Machine

open Sys2Proof

/-! ### Fabric time -/

/-- R149: at the master, the latched time of day waits for the PPS edge. -/
def todLatchRow : Prop := ∀ (ns : BitVec 64) (s : State), isMaster s.gen s.m = true →
  Yields (.todLatch ns) s fun m => m = { s.m with time := { s.m.time with tod := some ns.toNat } }

/-- R152: two seconds after the last used edge the source is no longer present; nothing else changes. -/
def ppsLossRow : Prop := ∀ (d : Nat) (s : State), isMaster s.gen s.m = true → s.m.deadline .pps = some d →
  Yields .ppsLoss s fun m =>
    let u := s.m.advanceTo d
    m = { u with time := { u.time with present := false }, timers := (u.stopTimer .pps).timers }

/-- R150, R151, R156: a usable edge at a master spends the latched time, brings FREE to LOCKED, and removes the offset: by a
step while the pricking is IDLE and the offset exceeds STEP_THRESHOLD, otherwise by a slew over one second, whose rate
`slewRateRow` limits. The next edge is awaited for two seconds (R152). -/
def ppsEdgeRow : Prop := ∀ (ns : Nat) (s : State), isMaster s.gen s.m = true → s.m.time.tod = some ns →
  ppsUsable s.m.time (stamp125 s.m.ft) = true →
  Yields .ppsEdge s fun m =>
    let off : Int := (nsUnits ns : Int) - (stamp125 s.m.ft : Int)
    changesOnly [.time, .timers, .nis] s.m m ∧ m.time.tod = none ∧ m.time.present = true ∧
      m.deadline .pps = some (s.m.now + usUnits 2000000) ∧ m.time.clk = s.m.time.clk ∧
      m.time.st = (if s.m.time.st = .free then .locked else s.m.time.st) ∧
      (if s.m.prk.st = .idle ∧ nsUnits (s.m.reg s.gen (key 0x3000 7)) < off.natAbs then
        m.time.ft = ((s.m.ft : Int) + off).toNat % 2 ^ 80 ∧ m.time.slew = 0
      else m.time.ft = s.m.ft ∧ m.time.slew = off ∧ m.time.slewLen = 2000000000 ∧ m.time.slewDone = 0)

/-- R150: an edge that finds no latched time of day, or misses the second by more than 1 ms, is counted and sets nothing. -/
def ppsErrorRow : Prop := ∀ s : State, isMaster s.gen s.m = true → ppsUsable s.m.time (stamp125 s.m.ft) = false →
  Yields .ppsEdge s fun m =>
    changesOnly [.regs] s.m m ∧ m.reg s.gen (key 0x3000 10) = wrapped s.gen s.m (key 0x3000 10) 1 ∧
      sameRegsBut [key 0x3000 10] s.m m

/-- R151, R160: while `n` fc pass the slot clock gains exactly n half-nanoseconds; fabric time gains as much and a part of the
offset being slewed, at most 50 ppm of it while a pricking is ACTIVE, here or, by the free value, elsewhere, and 500 ppm
otherwise; and SC counts n slots, or is ST's again in LOCKED and IDLE. -/
def slewRateRow : Prop := ∀ (m : Mach) (n : Nat), 0 < n →
  let m' := m.pass n
  ∃ δ : Int, δ.natAbs ≤ fcUnits n / m.slewDiv ∧ (prkRunning m = true → m.slewDiv = 20000) ∧ 2000 ≤ m.slewDiv ∧
    (m.time.slew = 0 → δ = 0) ∧ m'.time.ft = ((m.time.ft : Int) + (fcUnits n : Nat) + δ).toNat % 2 ^ 80 ∧
    m'.time.clk = m.time.clk + fcUnits n ∧ changesOnly [.time] m m' ∧
    m'.time.sc = if m.time.st = .locked ∧ m.prk.st = .idle then m'.time.slotTime else (m.time.sc + n) % 2 ^ 64

/-- What a message of type `t` with this payload adds to what leaves port p: on a short-reach port its bytes leave at once, on a
long-reach port they join the sideband stream (R397). -/
def sbLeaves (g : Gen) (t : Nat) (pl : Nat → List Byte) (ps : List Nat) : List Out :=
  (ps.filter fun p => g.phy p != 2).map fun p => .sideband p (sbMessage t (pl p))

/-- The ports that are UP. -/
def upPorts (s : State) : List Nat := (s.gen.ports.map (·.p)).filter fun p => (s.m.port p).link == .up

/-- R153: an advertisement of a live neighbour is kept, the upstream is chosen again from what the live neighbours
advertise, and one that shows another master takes TIME_STATE to FAULT (R158) and holds CONFLICT for 3 ms. -/
def timeAdvRow : Prop := ∀ (p : Nat) (x : TimeAdv) (s : State),
  s.gen.hasPort p = true → s.m.ports.has p = true → portLive s.m p = true →
  Yields (.timeAdv ⟨p, sbCrc 0x07 x.bytes⟩ x) s fun m =>
    changesOnly [.ports, .time, .timers, .regs, .hw, .logs, .nis, .out] s.m m ∧
    (m.port p).adv = some x ∧ m.time.upstream = bestUpstream s.gen m ∧
    ((conflictWith s.gen (s.m.updP p fun q => { q with adv := some x }) x).isSome → m.time.conflict = true ∧ m.time.st = .fault ∧
      m.deadline .conflict = some (s.m.now + usUnits 3000))

/-- R397: a sideband message whose CRC16 fails is dropped, whichever message it is. -/
def sidebandDropRow : Prop := ∀ (p : Nat) (crc : BitVec 16) (s : State) (i : Instr) (t : Nat) (pl : List Byte),
  s.gen.hasPort p = true → crc ≠ sbCrc t pl →
  (t = 0x07 ∧ (∃ x : TimeAdv, i = .timeAdv ⟨p, crc⟩ x ∧ pl = x.bytes) ∨
   t = 0x01 ∧ (∃ x : ParamMsg, i = .param ⟨p, crc⟩ x ∧ pl = x.bytes) ∨
   t = 0x02 ∧ (∃ n map, i = .train ⟨p, n, map, crc⟩ ∧ pl = trainBytes n map) ∨
   t = 0x03 ∧ (∃ c, i = .retrainReq ⟨p, crc⟩ c ∧ pl = [BitVec.ofNat 8 c]) ∨
   t = 0x04 ∧ (∃ a b, i = .tsValues ⟨p, crc⟩ a b ∧ pl = tsBytes a b) ∨
   t = 0x05 ∧ (∃ d : BitVec 32, i = .prkDigest ⟨p, crc⟩ d ∧ pl = toBytes d.toNat 4) ∨
   t = 0x06 ∧ (∃ c, i = .pwrReq ⟨p, crc⟩ c ∧ pl = [BitVec.ofNat 8 c]) ∨
   t = 0x08 ∧ i = .linkDown ⟨p, crc⟩ ∧ pl = []) →
  Yields i s fun m => m = s.m

/-- R153: the instance's position goes out on the sideband of every port that is UP. -/
def timeAdvSendRow : Prop := ∀ s : State,
  Yields .timeAdvSend s fun m =>
    changesOnly [.ports, .out] s.m m ∧
    m.out = s.m.out ++ sbLeaves s.gen 0x07 (fun p => TimeAdv.bytes (advOf s.gen s.m p)) (upPorts s)

/-- R158: 3 ms after the last conflict seen or CONFLICT received, CONFLICT clears and the position goes out again. -/
def conflictClearRow : Prop := ∀ (d : Nat) (s : State), s.m.time.conflict = true → s.m.deadline .conflict = some d →
  (∀ a ∈ liveAdvs s.gen s.m, a.2.conflict = false ∧ conflictWith s.gen s.m a.2 = none) →
  Yields .conflictClear s fun m =>
    changesOnly [.ports, .time, .timers, .out] s.m m ∧ m.time = { (s.m.advanceTo d).time with conflict := false } ∧
    d ≤ m.now ∧ m.deadline .conflict = none ∧
    m.out = s.m.out ++ sbLeaves s.gen 0x07 (fun p => TimeAdv.bytes (advOf s.gen m p)) (upPorts s)

/-- R154, R398: 1 ms after the exchange before, the next frame of the upstream's lowest trained channel carries the request mark,
and its answer is awaited for 200 µs. -/
def timeExchangeStartRow : Prop := ∀ (u c : Nat) (s : State), s.m.time.upstream = some u → isMaster s.gen s.m = false →
  portLive s.m u = true → lowestChan s.m u = some c → s.m.ports.has u = true → (s.m.port u).chans.has c = true →
  Yields .timeExchangeStart s fun m =>
    let v := s.m.advanceTo ((s.m.deadline .tsStart).getD s.m.now)
    changesOnly [.ports, .domains, .time, .timers, .out] s.m m ∧ m.time = { v.time with t1 := some (stamp125 v.ft), t4 := none } ∧
    m.deadline .tsStart = some (v.now + usUnits 1000) ∧ m.deadline .tsAnswer = some (v.now + usUnits 200) ∧
    (m.chan u c).tsMark = 1 ∧ ∀ p, p ≠ u → m.port p = s.m.port p

/-- R154, R156: a completed exchange records θ as the offset, ends, and moves TIME_STATE: to LOCKED at the eighth in a row
within 0.25 ns, back to ACQUIRING at the fourth in a row beyond 0.5 ns, and from HOLDOVER to ACQUIRING. -/
def tsValuesRow : Prop := ∀ (p t1 t2 t3 t4 : Nat) (s : State), s.gen.hasPort p = true → s.m.time.t1 = some t1 →
  s.m.time.t4 = some t4 → s.m.time.upstream = some p → t2 < 2 ^ 80 → t3 < 2 ^ 80 →
  Yields (.tsValues ⟨p, sbCrc 0x04 (tsBytes t2 t3)⟩ t2 t3) s fun m =>
    let th := theta t1 t2 t3 t4 (toSigned 32 (s.m.reg s.gen (key 0x3001 (p + 1))))
    changesOnly [.regs, .time, .timers, .nis] s.m m ∧
    m.reg s.gen (key 0x3000 4) = ofSigned 32 (th * 1000 / 65536) ∧
    sameRegsBut [key 0x3000 4] s.m m ∧ m.time.t1 = none ∧ m.time.t4 = none ∧ m.deadline .tsAnswer = none ∧
    m.deadline .exchange = some (s.m.now + usUnits 3000) ∧
    (if s.m.prk.st = .idle ∧ nsUnits (s.m.reg s.gen (key 0x3000 7)) < th.natAbs then
      m.time.ft = ((s.m.ft : Int) + th).toNat % 2 ^ 80 ∧ m.time.slew = 0
    else m.time.ft = s.m.ft ∧ m.time.slew = th ∧ m.time.slewLen = 2000000 ∧ m.time.slewDone = 0) ∧
    (s.m.time.st = .acquiring → m.time.st = if th.natAbs ≤ 16384 ∧ 7 ≤ s.m.time.good then .locked else .acquiring) ∧
    (s.m.time.st = .locked → m.time.st = if 32768 < th.natAbs ∧ 3 ≤ s.m.time.bad then .acquiring else .locked) ∧
    (s.m.time.st = .holdover → m.time.st = .acquiring) ∧ (s.m.time.st = .free → m.time.st = .free) ∧
    (s.m.time.st = .fault → m.time.st = .fault)

/-- R398: 200 µs after its request an exchange is given up and counted at its port. That the upstream is then chosen again is
R157's, by log 169. -/
def tsExchangeTimeoutRow : Prop := ∀ (u t1 d : Nat) (s : State), s.m.time.t1 = some t1 → s.m.time.upstream = some u →
  s.m.deadline .tsAnswer = some d →
  Yields .tsExchangeTimeout s fun m =>
    changesOnly [.regs, .ports, .time, .timers, .out] s.m m ∧ m.time.t1 = none ∧ m.time.t4 = none ∧ d ≤ m.now ∧
    m.deadline .tsAnswer = none ∧ (s.m.time.st ≠ .free → m.time.st = s.m.time.st) ∧
    m.reg s.gen (key (0x7100 + u) 0x12) = wrapped s.gen s.m (key (0x7100 + u) 0x12) 1 ∧ sameRegsBut [key (0x7100 + u) 0x12] s.m m ∧
    m.time.upstream = if nearUpstream s.gen s.m u then bestUpstream s.gen m else some u

/-- R156, R157: 3 ms after the last completed exchange a LOCKED follower takes another port toward the master without a change of
state, and goes to HOLDOVER, whose limit begins, where there is none. -/
def holdoverEntryRow : Prop := ∀ (u d : Nat) (s : State), isMaster s.gen s.m = false → s.m.time.st = .locked →
  s.m.time.upstream = some u → s.m.deadline .exchange = some d →
  Yields .holdoverEntry s fun m =>
    changesOnly [.ports, .time, .timers, .out] s.m m ∧ d ≤ m.now ∧
    m.time.upstream = bestUpstream s.gen m ∧ u ∈ m.time.deaf ∧
    (m.time.upstream ≠ some u → m.time.st = .locked ∧ m.deadline .exchange = some (m.now + usUnits 3000)) ∧
    (m.time.upstream = some u → m.time.st = .holdover ∧
      m.deadline .holdover = some (m.now + usUnits (1000 * s.m.time.holdLimit)))

/-- R156, R202: HOLDOVER at the limit that was in force as it began goes to FAULT. -/
def holdoverLimitRow : Prop := ∀ (d : Nat) (s : State), s.m.time.st = .holdover → s.m.deadline .holdover = some d →
  Yields .holdoverLimit s fun m =>
    changesOnly [.regs, .hw, .logs, .nis, .time, .timers] s.m m ∧ m.time = { (s.m.advanceTo d).time with st := .fault } ∧ d ≤ m.now

/-- R160: a slot misalignment of more than two slots while the pricking runs takes TIME_STATE to FAULT and sets TIME_FAULT of
PRK_STATUS. -/
def slotMisalignRow : Prop := ∀ s : State, prkRunning s.m = true → 2 < s.m.time.slotErr.natAbs →
  Yields .slotMisalign s fun m =>
    changesOnly [.regs, .hw, .logs, .nis, .time] s.m m ∧ m.time = { s.m.time with st := .fault } ∧
    bit (m.reg s.gen (key 0x3100 6)) 2 = true

/-- R9, R151: letting time pass to `t` brings the slot clock to the first fc edge at or after it and changes nothing but time. -/
def advanceRow : Prop := ∀ (m : Mach) (t : Nat), changesOnly [.time] m (m.advanceTo t) ∧
  (m.advanceTo t).now = m.now + (t - m.now + 32767) / 32768 * 32768

end Sys2Proof.Machine

open Sys2Proof.Machine in
/-- TOD_LATCH, PPS_LOSS and PPS_EDGE at the time master (R149 to R152, R156). -/
def Obligations.MasterTimeInputs : Prop := todLatchRow ∧ ppsLossRow ∧ ppsEdgeRow ∧ ppsErrorRow

open Sys2Proof.Machine in
/-- How time passes: the slot clock, fabric time with its slew, and the slot count (R151, R160; log 95 for a pricking elsewhere). -/
def Obligations.TimePasses : Prop := slewRateRow ∧ advanceRow

open Sys2Proof.Machine in
/-- TIME_ADV, TIME_ADV_SEND, CONFLICT_CLEAR and a sideband message with a wrong CRC16 (R153, R158, R397). -/
def Obligations.TimeTreeRows : Prop := timeAdvRow ∧ timeAdvSendRow ∧ conflictClearRow ∧ sidebandDropRow

open Sys2Proof.Machine in
/-- TIME_EXCHANGE_START, TS_VALUES and TS_EXCHANGE_TIMEOUT (R154, R156, R398). -/
def Obligations.TimeExchangeRows : Prop := timeExchangeStartRow ∧ tsValuesRow ∧ tsExchangeTimeoutRow

open Sys2Proof.Machine in
/-- HOLDOVER_ENTRY, HOLDOVER_LIMIT and SLOT_MISALIGN (R156, R157, R160). -/
def Obligations.TimeLossRows : Prop := holdoverEntryRow ∧ holdoverLimitRow ∧ slotMisalignRow


namespace Sys2Proof.Machine

open Sys2Proof

/-! ### Engine instructions -/

/-- Scalar register `n`: s0 reads as zero (R302). -/
def Ctx.sreg (x : Ctx) (n : Nat) : BitVec 64 := if n = 0 then 0 else x.s.getD n 0

/-- The context after a write of scalar register `n`: a write of s0 is discarded (R302). -/
def Ctx.setS (x : Ctx) (n : Nat) (v : BitVec 64) : Ctx := { x with s := if n = 0 then x.s else x.s.set n v }

def Ctx.setW (x : Ctx) (n : Nat) (v : Payload) : Ctx := { x with w := x.w.set n v }

/-- The context after one issued instruction that goes on to the next (R306, R346). -/
def Ctx.on (x : Ctx) : Ctx := { x with pc := x.pc + 1, issued := x.issued + 1 }

/-- The context after a jump to `t`. -/
def Ctx.to (x : Ctx) (t : Nat) : Ctx := { x with pc := t, issued := x.issued + 1 }

/-- The context after a yield point: its count begins anew under the WATCHDOG of now (R346, R350). -/
def Ctx.anew (x : Ctx) (wd : Nat) : Ctx := { x with pc := x.pc + 1, issued := 0, wd := wd }

/-- The WATCHDOG register of engine i. -/
def wdOf (s : State) (i : Nat) : Nat := s.m.reg s.gen (engKey i 0x0A)

/-- Only engine i differs, by `f`; its context c is now `y`, was the last to issue, and may issue again `lat` fc later; the
issue slot is free in the next fc (R304, R308). -/
def ranWith (m : Mach) (i c lat : Nat) (y : Ctx) (f : Engine → Engine) : Mach :=
  m.updE i fun e => f { e with
    lastCtx := c, free := m.now + fcUnits 1, ctxs := e.ctxs.upd c fun _ => { y with rdyAt := m.now + fcUnits lat } }

/-- Context c of engine i, which is `x`, issues in this fc the word `w` at its PC, with opcode `op` (R304, R306, R329, R346): it is
its turn. `issueTurnRow` says when a turn comes. -/
abbrev canIssue (s : State) (i c op : Nat) (yields : Bool) (x : Ctx) (w : Nat) : Prop :=
  (s.gen.hasEngine i = true ∧ c < 8 ∧ s.m.engines.has i = true ∧ s.m.ctx? i c = some x ∧ x.st = .ready) ∧
  (((s.m.eng i).fs = .running ∨ (s.m.eng i).fs = .stopping) ∧ s.m.awake (s.gen.niDom (engNi s.gen i)) = true ∧
    (s.m.eng i).nextIssue s.m.now = some (s.m.now, c)) ∧
  (s.m.eng i).imemBad.contains x.pc = false ∧ x.memErr = none ∧ (s.m.eng i).fetch x.pc = w ∧ w / 2 ^ 26 = op ∧
  (yields = true ∨ x.wd = 0 ∨ x.issued < x.wd) ∧ x.pc < 4095 ∧ x.s.length = 32 ∧ x.w.length = 4

/-- R309: the results of the 19 functions of ALU. -/
def aluResult (fn : Nat) (a b : BitVec 64) : Option (BitVec 64) :=
  match fn with
  | 0x00 => some (a + b)
  | 0x01 => some (a - b)
  | 0x02 => some (a &&& b)
  | 0x03 => some (a ||| b)
  | 0x04 => some (a ^^^ b)
  | 0x05 => some (a <<< (b.toNat % 64))
  | 0x06 => some (a >>> (b.toNat % 64))
  | 0x07 => some (a.sshiftRight (b.toNat % 64))
  | 0x08 => some (if a.slt b then 1 else 0)
  | 0x09 => some (if a.ult b then 1 else 0)
  | 0x0A => some (if b.slt a then b else a)
  | 0x0B => some (if a.slt b then b else a)
  | 0x0C => some (if b.ult a then b else a)
  | 0x0D => some (if a.ult b then b else a)
  | 0x0E => some (a * b)
  | 0x0F => some ((a.zeroExtend 128 * b.zeroExtend 128).extractLsb' 64 64)
  | 0x10 => some (BitVec.ofNat 64 ((List.range 64).findIdx fun j => a.getMsbD j))
  | 0x11 => some (BitVec.ofNat 64 ((List.range 64).countP fun j => a.getLsbD j))
  | 0x12 => some (BitVec.ofNat 64 ((List.range 8).map fun j => (a.extractLsb' (8 * j) 8).toNat * 2 ^ (56 - 8 * j)).sum)
  | _ => none

/-- The 16-bit immediate of format I. -/
def imm16 (w : Nat) : BitVec 16 := BitVec.ofNat 16 w

def aluRow : Prop := ∀ (i c : Nat) (s : State) (x : Ctx) (w : Nat) (v : BitVec 64), canIssue s i c 0x00 false x w →
  fld w 10 6 = 0 → aluResult (fld w 5 0) (x.sreg (fSA w)) (x.sreg (fSB w)) = some v →
  Yields (.alu i c) s fun m => m = ranWith s.m i c (if fld w 5 0 = 0x0E ∨ fld w 5 0 = 0x0F then 3 else 1) (x.setS (fSD w) v).on id

/-- The instructions of format I with a result: `f` gives the result from the first operand and the immediate. -/
def immRow (instr : Nat → Nat → Instr) (op : Nat) (f : BitVec 64 → BitVec 16 → BitVec 64) : Prop :=
  ∀ (i c : Nat) (s : State) (x : Ctx) (w : Nat), canIssue s i c op false x w →
  Yields (instr i c) s fun m => m = ranWith s.m i c 1 (x.setS (fSD w) (f (x.sreg (fSA w)) (imm16 w))).on id

def addiRow : Prop := immRow .addi 0x01 fun a b => a + b.signExtend 64
def andiRow : Prop := immRow .andi 0x02 fun a b => a &&& b.zeroExtend 64
def oriRow : Prop := immRow .ori 0x03 fun a b => a ||| b.zeroExtend 64
def xoriRow : Prop := immRow .xori 0x04 fun a b => a ^^^ b.zeroExtend 64
def sltiRow : Prop := immRow .slti 0x07 fun a b => if a.slt (b.signExtend 64) then 1 else 0

/-- SHI: KIND 0 shifts left, 1 right, 2 right with the sign. -/
def shiRow : Prop := ∀ (i c : Nat) (s : State) (x : Ctx) (w : Nat), canIssue s i c 0x05 false x w →
  fld w 15 8 = 0 → fld w 7 6 ≤ 2 →
  Yields (.shi i c) s fun m =>
    let a := x.sreg (fSA w)
    let n := fld w 5 0
    m = ranWith s.m i c 1 (x.setS (fSD w)
      (if fld w 7 6 = 0 then a <<< n else if fld w 7 6 = 1 then a >>> n else a.sshiftRight n)).on id

def luiRow : Prop := ∀ (i c : Nat) (s : State) (x : Ctx) (w : Nat), canIssue s i c 0x06 false x w → fld w 20 16 = 0 →
  Yields (.lui i c) s fun m => m = ranWith s.m i c 1 (x.setS (fSD w) ((imm16 w).signExtend 64 <<< 16)).on id

/-- R310: the target of a branch, counted from the branch itself. -/
def branchTarget (x : Ctx) (w : Nat) : Int := (x.pc : Int) + (BitVec.ofNat 13 w).toInt

/-- A branch compares two registers and goes on or to its target; it changes no register. -/
def branchRow (instr : Nat → Nat → Instr) (op : Nat) (f : BitVec 64 → BitVec 64 → Bool) : Prop :=
  ∀ (i c : Nat) (s : State) (x : Ctx) (w : Nat), canIssue s i c op false x w → fld w 15 13 = 0 →
  (f (x.sreg (fSD w)) (x.sreg (fSA w)) = true → 0 ≤ branchTarget x w ∧ branchTarget x w ≤ 4095) →
  Yields (instr i c) s fun m =>
    m = ranWith s.m i c (if f (x.sreg (fSD w)) (x.sreg (fSA w)) then 2 else 1) (if f (x.sreg (fSD w)) (x.sreg (fSA w)) then x.to (branchTarget x w).toNat else x.on) id

def beqRow : Prop := branchRow .beq 0x08 fun a b => a == b
def bneRow : Prop := branchRow .bne 0x09 fun a b => a != b
def bltRow : Prop := branchRow .blt 0x0A BitVec.slt
def bgeRow : Prop := branchRow .bge 0x0B fun a b => !a.slt b
def bltuRow : Prop := branchRow .bltu 0x0C BitVec.ult
def bgeuRow : Prop := branchRow .bgeu 0x0D fun a b => !a.ult b

def jalRow : Prop := ∀ (i c : Nat) (s : State) (x : Ctx) (w : Nat), canIssue s i c 0x0E false x w →
  fld w 20 16 = 0 → fld w 15 12 = 0 →
  Yields (.jal i c) s fun m =>
    m = ranWith s.m i c 2 ((x.setS (fSD w) (BitVec.ofNat 64 (x.pc + 1))).to (fld w 11 0)) id

/-- JALR: the target is read before the link is written. -/
def jalrRow : Prop := ∀ (i c : Nat) (s : State) (x : Ctx) (w : Nat), canIssue s i c 0x0F false x w → fld w 10 0 = 0 →
  Yields (.jalr i c) s fun m =>
    m = ranWith s.m i c 2 ((x.setS (fSD w) (BitVec.ofNat 64 (x.pc + 1))).to ((x.sreg (fSA w)).toNat % 4096)) id

/-- The address of a scratch access of format M, and its size. -/
def memAddr (x : Ctx) (w : Nat) : Nat := (x.sreg (fSA w) + BitVec.ofNat 64 (fld w 13 0)).toNat

def memSize (w : Nat) : Nat := 2 ^ fld w 15 14

/-- R311: `n` bytes at `a` lie in scratch, and `a` is a multiple of `al`. -/
abbrev inScratch (a n al : Nat) : Prop := a + n ≤ 0x8000 ∧ a % al = 0

/-- R305, R311: no byte of the range lies in a poisoned word. -/
abbrev clean (e : Engine) (a n : Nat) : Prop := ∀ k ∈ e.poisoned, ¬(k * 8 < a + n ∧ a < k * 8 + 8)

/-- Little-endian value of `n` bytes of scratch. -/
def scratchVal (e : Engine) (a n : Nat) : Nat := ofBytes ((List.range n).map fun j => Mem.read1 e.scratch (a + j))

def ldRow : Prop := ∀ (i c : Nat) (s : State) (x : Ctx) (w : Nat), canIssue s i c 0x10 false x w →
  inScratch (memAddr x w) (memSize w) (memSize w) → clean (s.m.eng i) (memAddr x w) (memSize w) →
  Yields (.ld i c) s fun m => m = ranWith s.m i c 2
    (x.setS (fSD w) (BitVec.ofNat 64 (scratchVal (s.m.eng i) (memAddr x w) (memSize w)))).on id

def ldsRow : Prop := ∀ (i c : Nat) (s : State) (x : Ctx) (w : Nat), canIssue s i c 0x11 false x w →
  inScratch (memAddr x w) (memSize w) (memSize w) → clean (s.m.eng i) (memAddr x w) (memSize w) →
  Yields (.lds i c) s fun m => m = ranWith s.m i c 2
    (x.setS (fSD w) ((BitVec.ofNat (8 * memSize w) (scratchVal (s.m.eng i) (memAddr x w) (memSize w))).signExtend 64)).on id

/-- After a store of `n` bytes of `v` at `a`: those bytes, and every other byte as before; a word the store covers whole
is no longer poisoned and every other word is as before (R302, R305). -/
def storedAt (e e' : Engine) (a n v : Nat) : Prop :=
  (∀ b, Mem.read1 e'.scratch b = if a ≤ b ∧ b < a + n then BitVec.ofNat 8 (v / 256 ^ (b - a)) else Mem.read1 e.scratch b) ∧
  (∀ k, k ∈ e'.poisoned ↔ k ∈ e.poisoned ∧ ¬(a ≤ k * 8 ∧ k * 8 + 8 ≤ a + n)) ∧ Mem.wf e'.scratch = true

/-- A storing instruction changes scratch as `storedAt` says and nothing else but the context's own count. -/
def storeRow (instr : Nat → Nat → Instr) (op : Nat) (n : Nat → Nat) (v : Ctx → Nat → Nat) (ok : Nat → Prop) : Prop :=
  ∀ (i c : Nat) (s : State) (x : Ctx) (w : Nat), canIssue s i c op false x w → ok w →
  inScratch (memAddr x w) (n w) (n w) → Mem.wf (s.m.eng i).scratch = true →
  Yields (instr i c) s fun m => ∃ sc po,
    m = ranWith s.m i c 2 x.on (fun e => { e with scratch := sc, poisoned := po }) ∧
    storedAt (s.m.eng i) (m.eng i) (memAddr x w) (n w) (v x w)

def stRow : Prop := storeRow .st 0x12 memSize (fun x w => (x.sreg (fSD w)).toNat) fun _ => True
def wstRow : Prop := storeRow .wst 0x14 (fun _ => 64) (fun x w => (x.wide (fld w 22 21)).toNat) fun w => fld w 25 23 = 0 ∧ fld w 15 14 = 0

def wldRow : Prop := ∀ (i c : Nat) (s : State) (x : Ctx) (w : Nat), canIssue s i c 0x13 false x w → fld w 25 23 = 0 →
  fld w 15 14 = 0 → inScratch (memAddr x w) 64 64 → clean (s.m.eng i) (memAddr x w) 64 →
  Yields (.wld i c) s fun m => m = ranWith s.m i c 2
    (x.setW (fld w 22 21) (BitVec.ofNat 512 (scratchVal (s.m.eng i) (memAddr x w) 64))).on id

/-- XTR: LEN bits from POS of a wide register, zero-extended. -/
def xtrRow : Prop := ∀ (i c : Nat) (s : State) (x : Ctx) (w : Nat), canIssue s i c 0x18 false x w → fld w 3 0 = 0 →
  posX w + lenX w ≤ 512 →
  Yields (.xtr i c) s fun m => m = ranWith s.m i c 1
    (x.setS (fSD w) (((x.wide (fld w 20 19)).extractLsb' (posX w) (lenX w)).zeroExtend 64)).on id

/-- `y` is `p` with `n` bits from `lo` taken from `v`. -/
def spliced (p y : Payload) (lo n : Nat) (v : BitVec 64) : Prop :=
  ∀ j, j < 512 → y.getLsbD j = if lo ≤ j ∧ j < lo + n then v.getLsbD (j - lo) else p.getLsbD j

/-- SPL: LEN bits of a scalar register take the place of those from POS on; the other bits stay. -/
def splRow : Prop := ∀ (i c : Nat) (s : State) (x : Ctx) (w : Nat), canIssue s i c 0x19 false x w → fld w 3 0 = 0 →
  posX w + lenX w ≤ 512 →
  Yields (.spl i c) s fun m => ∃ y, m = ranWith s.m i c 1 (x.setW (fld w 20 19) y).on id ∧
    spliced (x.wide (fld w 20 19)) y (posX w) (lenX w) (x.sreg (fSD w))

def wgetRow : Prop := ∀ (i c : Nat) (s : State) (x : Ctx) (w : Nat), canIssue s i c 0x1A false x w → fld w 10 2 = 0 →
  Yields (.wget i c) s fun m => m = ranWith s.m i c 1
    (x.setS (fSD w) ((x.wide (fld w 1 0)).extractLsb' (64 * ((x.sreg (fSA w)).toNat % 8)) 64)).on id

def wputRow : Prop := ∀ (i c : Nat) (s : State) (x : Ctx) (w : Nat), canIssue s i c 0x1B false x w → fld w 25 21 = 0 →
  fld w 10 2 = 0 →
  Yields (.wput i c) s fun m => ∃ y, m = ranWith s.m i c 1 (x.setW (fld w 1 0) y).on id ∧
    spliced (x.wide (fld w 1 0)) y (64 * ((x.sreg (fSA w)).toNat % 8)) 64 (x.sreg (fSB w))

/-- WOP: move, zero, AND, OR, XOR of whole wide registers. -/
def wopRow : Prop := ∀ (i c : Nat) (s : State) (x : Ctx) (w : Nat), canIssue s i c 0x1C false x w → fld w 19 16 = 0 →
  fld w 12 0 = 0 → fld w 15 13 ≤ 4 →
  Yields (.wop i c) s fun m =>
    let a := x.wide (fld w 23 22)
    let b := x.wide (fld w 21 20)
    m = ranWith s.m i c 1 (x.setW (fld w 25 24)
      (match fld w 15 13 with
       | 0 => a
       | 1 => 0
       | 2 => a &&& b
       | 3 => a ||| b
       | _ => a ^^^ b)).on id

/-- R338: one 64-bit lane of a reduction. -/
def lane64 (op : Nat) (a b : BitVec 64) : BitVec 64 :=
  match op with
  | 0 => a + b
  | 1 => if b.slt a then b else a
  | 2 => if a.slt b then b else a
  | 3 => a &&& b
  | 4 => a ||| b
  | _ => a ^^^ b

/-- WRED: on 64-bit lanes each lane by itself; whatever the lanes, only the destination and the model's own counter of free
values change. -/
def wredRow : Prop := ∀ (i c : Nat) (s : State) (x : Ctx) (w : Nat), canIssue s i c 0x30 false x w → fld w 19 16 = 0 →
  fld w 10 0 = 0 → reduceOk (fld w 15 13) (fld w 12 11) = true →
  Yields (.wred i c) s fun m => ∃ y, m = { ranWith s.m i c 2 (x.setW (fld w 25 24) y).on id with fresh := s.m.fresh + 32 } ∧
    (fld w 12 11 = 2 → ∀ j, j < 8 → y.extractLsb' (64 * j) 64 = lane64 (fld w 15 13)
      ((x.wide (fld w 23 22)).extractLsb' (64 * j) 64) ((x.wide (fld w 21 20)).extractLsb' (64 * j) 64))

/-! #### Sends and receives -/

/-- SEND (R323, R324): the packet joins the send queue; a non-posted one counts against the context. -/
def sendRow : Prop := ∀ (i c : Nat) (s : State) (x : Ctx) (w : Nat), canIssue s i c 0x20 false x w → fld w 15 0 = 0 →
  sendRefused s.gen i (Hdr.ofBits (x.wide (fld w 25 24))) (fld w 23 21) = false →
  (fld w 23 21 ≠ 0 → inScratch (x.sreg (fSA w)).toNat (64 * fld w 23 21) 64 ∧
    clean (s.m.eng i) (x.sreg (fSA w)).toNat (64 * fld w 23 21)) →
  ((s.m.eng i).sendQ.filter fun q => q.ctx < 8).length < 4 →
  ((Hdr.ofBits (x.wide (fld w 25 24))).np = true → x.sends + x.rq.length < 8) →
  Yields (.send i c) s fun m =>
    let h := Hdr.ofBits (x.wide (fld w 25 24))
    let d := packBytes ((s.m.eng i).loadBytes (x.sreg (fSA w)).toNat (64 * fld w 23 21)) (fld w 23 21)
    m = ranWith s.m i c (1 + fld w 23 21) { x.on with sends := x.sends + h.np.toNat } fun e =>
      { e with sendQ := e.sendQ ++ [⟨c, ⟨h, d, false, []⟩, h.np⟩] }

/-- SEND with the send queue full is not issued: the context waits (R323). -/
def sendFullRow : Prop := ∀ (i c : Nat) (s : State) (x : Ctx) (w : Nat), canIssue s i c 0x20 false x w → fld w 15 0 = 0 →
  sendRefused s.gen i (Hdr.ofBits (x.wide (fld w 25 24))) (fld w 23 21) = false →
  (fld w 23 21 ≠ 0 → inScratch (x.sreg (fSA w)).toNat (64 * fld w 23 21) 64 ∧
    clean (s.m.eng i) (x.sreg (fSA w)).toNat (64 * fld w 23 21)) →
  4 ≤ ((s.m.eng i).sendQ.filter fun q => q.ctx < 8).length →
  Yields (.send i c) s fun m => m = s.m.updE i fun e => { e with ctxs := e.ctxs.upd c fun _ => { x with st := .waitSend } }

/-- SENDL (R326) with room for every copy still to go: one posted copy to each listed fabric ID, in list order. -/
def sendlRow : Prop := ∀ (i c : Nat) (s : State) (x : Ctx) (w : Nat), canIssue s i c 0x21 false x w → fld w 3 0 = 0 →
  sendRefused s.gen i (Hdr.ofBits (x.wide (fld w 25 24))) (fld w 23 21) = false →
  (Hdr.ofBits (x.wide (fld w 25 24))).np = false → (Hdr.ofBits (x.wide (fld w 25 24))).mcast = false →
  (fld w 23 21 ≠ 0 → inScratch (x.sreg (fSA w)).toNat (64 * fld w 23 21) 64 ∧
    clean (s.m.eng i) (x.sreg (fSA w)).toNat (64 * fld w 23 21)) →
  inScratch (x.sreg (fSB w)).toNat (2 * (fld w 10 4 + 1)) 2 → clean (s.m.eng i) (x.sreg (fSB w)).toNat (2 * (fld w 10 4 + 1)) →
  x.copies = 0 → fld w 10 4 + 1 + ((s.m.eng i).sendQ.filter fun q => q.ctx < 8).length ≤ 4 →
  Yields (.sendl i c) s fun m =>
    let h := Hdr.ofBits (x.wide (fld w 25 24))
    let d := packBytes ((s.m.eng i).loadBytes (x.sreg (fSA w)).toNat (64 * fld w 23 21)) (fld w 23 21)
    m = ranWith s.m i c ((fld w 10 4 + 1) * (1 + fld w 23 21)) x.on fun e =>
      { e with sendQ := e.sendQ ++ (List.range (fld w 10 4 + 1)).map fun j =>
          ⟨c, ⟨{ h with dest := BitVec.ofNat 16 (scratchVal (s.m.eng i) ((x.sreg (fSB w)).toNat + 2 * j) 2) }, d, false, []⟩, false⟩ }

/-- RECV (R325): an empty receive queue gives all ones. -/
def recvEmptyRow : Prop := ∀ (i c : Nat) (s : State) (x : Ctx) (w : Nat), canIssue s i c 0x22 false x w → fld w 13 0 = 0 →
  x.rq = [] →
  Yields (.recv i c) s fun m => m = ranWith s.m i c 2 (x.setS (fSD w) (BitVec.allOnes 64)).on id

/-- RECV (R325): the oldest completion leaves the queue: its header into a wide register, its LEN into the scalar
register, its data flits to scratch. -/
def recvRow : Prop := ∀ (i c : Nat) (s : State) (x : Ctx) (w : Nat) (p : Pkt) (rest : List Pkt),
  canIssue s i c 0x22 false x w → fld w 13 0 = 0 → x.rq = p :: rest →
  (p.data ≠ [] → inScratch (x.sreg (fSA w)).toNat (64 * p.data.length) 64) → Mem.wf (s.m.eng i).scratch = true →
  Yields (.recv i c) s fun m => ∃ sc po,
    m = ranWith s.m i c 2 { ((x.setW (fld w 15 14) p.hdr.bits).setS (fSD w) (BitVec.ofNat 64 p.hdr.n)).on with rq := rest }
      (fun e => { e with scratch := sc, poisoned := po }) ∧
    ∀ b, Mem.read1 sc b =
      if (x.sreg (fSA w)).toNat ≤ b ∧ b < (x.sreg (fSA w)).toNat + 64 * p.data.length then
        ((p.data.flatMap fun d => toBytes d.toNat 64).getD (b - (x.sreg (fSA w)).toNat) 0)
      else Mem.read1 (s.m.eng i).scratch b

/-- FINISH (R322) of a context no invocation started: it ends where it stands and gives up its roots. -/
def finishRow : Prop := ∀ (i c : Nat) (s : State) (x : Ctx) (w : Nat), canIssue s i c 0x23 true x w → fld w 11 0 = 0 →
  x.inv = none → (x.sreg (fSA w)).toNat ≤ 256 →
  Yields (.finish i c) s fun m =>
    m = ranWith s.m i c 2 { x with st := .ending, roots := [], issued := 0, wd := wdOf s i } fun e =>
      { e with coll := e.coll.map fun (d, y) => (d, if y.root = some c then { y with root := none } else y) }

/-- FINISH (R322) of an invocation of class 1 to 3: its completion leaves with STATUS and the bytes named: none, up to 26
inline, more in data flits. -/
def finishInvRow : Prop := ∀ (i c : Nat) (s : State) (x : Ctx) (w : Nat) (h : Hdr), canIssue s i c 0x23 true x w →
  fld w 11 0 = 0 → x.inv = some h → h.k ≠ 0 → (x.sreg (fSA w)).toNat ≤ 256 →
  ((x.sreg (fSA w)).toNat ≠ 0 → inScratch (x.sreg (fSD w)).toNat (x.sreg (fSA w)).toNat 1 ∧
    clean (s.m.eng i) (x.sreg (fSD w)).toNat (x.sreg (fSA w)).toNat) →
  Yields (.finish i c) s fun m =>
    let bs := (s.m.eng i).loadBytes (x.sreg (fSD w)).toNat (x.sreg (fSA w)).toNat
    let f := s.m.fid s.gen (engNi s.gen i)
    m = (ranWith s.m i c 2 { x with st := .ending, inv := none, roots := [], issued := 0, wd := wdOf s i } fun e =>
      { e with coll := e.coll.map fun (d, y) => (d, if y.root = some c then { y with root := none } else y) }).sendInternal
        (engNi s.gen i)
        (if bs.length = 0 then rspPkt h f (fld w 15 12)
         else if bs.length ≤ 26 then rspInlinePkt h f (fld w 15 12) bs
         else rspDataPkt h f (fld w 15 12) bs)

/-! #### Memory -/

/-- The memory-port request of R327 for context c in operation slot k. -/
def ctxReq (s : State) (i c k cmd a : Nat) (be : BitVec 64) (data : List Payload) : Pkt :=
  memReq s.gen s.m (engNi s.gen i) cmd a (engSlot s.gen i * 512 + c * 64 + k * 8) be data

/-- R327: the operation takes the lowest free slot k and its request waits at the host NI's egress channel 0. -/
abbrev memReady (s : State) (i a k : Nat) (x : Ctx) : Prop :=
  a % 64 = 0 ∧ x.ops.lowestFree 0 8 = some k ∧ agentGone s.m (engNi s.gen i) = false

/-- MRD (R327): the PC stays until the data comes. -/
def mrdRow : Prop := ∀ (i c : Nat) (s : State) (x : Ctx) (w k : Nat), canIssue s i c 0x28 false x w → fld w 23 21 = 0 →
  fld w 15 0 = 0 → memReady s i (x.sreg (fSA w)).toNat k x →
  Yields (.mrd i c) s fun m =>
    m = memPush (ranWith s.m i c 1 { x with ops := x.ops.put k (.wide (fld w 25 24)), order := x.order ++ [k], st := .waitData, issued := x.issued + 1 } id)
      (engNi s.gen i) (ctxReq s i c k 0x00 (x.sreg (fSA w)).toNat 0 [])

/-- MWR (R327): WR_NP when every byte is selected, WR_NP_PART with the mask otherwise; the context goes on. -/
def mwrRow : Prop := ∀ (i c : Nat) (s : State) (x : Ctx) (w k : Nat), canIssue s i c 0x29 false x w → fld w 23 21 = 0 →
  fld w 10 0 = 0 → memReady s i (x.sreg (fSA w)).toNat k x →
  Yields (.mwr i c) s fun m =>
    let be := x.sreg (fSB w)
    m = memPush (ranWith s.m i c 1 { x.on with ops := x.ops.put k .write, order := x.order ++ [k] } id) (engNi s.gen i)
      (if be = BitVec.allOnes 64 then ctxReq s i c k 0x20 (x.sreg (fSA w)).toNat 0 [x.wide (fld w 25 24)]
       else ctxReq s i c k 0x22 (x.sreg (fSA w)).toNat be [x.wide (fld w 25 24)])

/-- MRDS (R327): 64 bytes for scratch; the context goes on. -/
def mrdsRow : Prop := ∀ (i c : Nat) (s : State) (x : Ctx) (w k : Nat), canIssue s i c 0x2B false x w → fld w 25 21 = 0 →
  fld w 10 0 = 0 → memReady s i (x.sreg (fSA w)).toNat k x → inScratch (x.sreg (fSB w)).toNat 64 64 →
  Yields (.mrds i c) s fun m =>
    m = memPush (ranWith s.m i c 1 { x.on with ops := x.ops.put k (.scratch (x.sreg (fSB w)).toNat), order := x.order ++ [k] } id)
      (engNi s.gen i) (ctxReq s i c k 0x00 (x.sreg (fSA w)).toNat 0 [])

/-- MWAIT: goes on, as a yield point, with at most N operations outstanding, and waits otherwise. -/
def mwaitRow : Prop := ∀ (i c : Nat) (s : State) (x : Ctx) (w : Nat), canIssue s i c 0x2C true x w → fld w 25 16 = 0 →
  Yields (.mwait i c) s fun m =>
    m = if (x.ops.filter fun o => o.1 < 8).length ≤ fld w 15 0 then ranWith s.m i c 1 (x.anew (wdOf s i)) id
      else s.m.updE i fun e => { e with ctxs := e.ctxs.upd c fun _ => { x with st := .waitMem } }

/-- MAMO (R330, R334): the operation joins an entry of the engine's own path and the context waits for the old value. -/
def mamoRow : Prop := ∀ (i c : Nat) (s : State) (x : Ctx) (w : Nat), canIssue s i c 0x2A false x w → fld w 0 0 = 0 →
  fld w 10 8 ≤ 3 → fld w 7 4 ≤ 0x0A → (x.sreg (fSA w)).toNat % 2 ^ fld w 10 8 = 0 →
  atomFmtOk (0x40 + fld w 7 4) (fld w 3 1) (fld w 10 8) = true → (x.sreg (fSA w)).toNat < 2 ^ 56 →
  (s.m.eng i).atom = [] →
  Yields (.mamo i c) s fun m => ∃ op,
    m = ranWith s.m i c 1 { x with st := .waitData, issued := x.issued + 1, ops := x.ops.put 8 (.amo (fSD w)), order := x.order ++ [8] } (fun e =>
      { e with atom := [(0, ⟨(x.sreg (fSA w)).toNat / 64, 1, 0, [op]⟩)] }) ∧
    op.ctx = some (c, fSD w) ∧ op.cmd = 0x40 + fld w 7 4 ∧ op.size = 2 ^ fld w 10 8 ∧ op.hdr.a = (x.sreg (fSA w)).toNat ∧
    op.a = (x.sreg (if fld w 7 4 = 2 then fSD w else fSB w)).toNat % 2 ^ (8 * 2 ^ fld w 10 8)

/-! #### Events, collectives, special values -/

/-- CONTRIB (R337) that does not complete the round: the contribution is counted, the first one is stored as it is, and
the context goes on. -/
def contribRow : Prop := ∀ (i c : Nat) (s : State) (x : Ctx) (w : Nat), canIssue s i c 0x31 false x w → fld w 21 21 = 0 →
  fld w 15 0 = 0 → (descOf s.gen s.m i (fld w 25 22)).valid = true →
  inScratch (x.sreg (fSA w)).toNat (64 * (descOf s.gen s.m i (fld w 25 22)).flits) 64 →
  clean (s.m.eng i) (x.sreg (fSA w)).toNat (64 * (descOf s.gen s.m i (fld w 25 22)).flits) →
  (collOf s.m i (fld w 25 22)).local_ = (collOf s.m i (fld w 25 22)).round → (collOf s.m i (fld w 25 22)).round < 65536 →
  (collOf s.m i (fld w 25 22)).cnt0 + 1 < (descOf s.gen s.m i (fld w 25 22)).expect → Mem.wf (s.m.eng i).scratch = true →
  Yields (.contrib i c) s fun m =>
    let d := fld w 25 22
    let x' := descOf s.gen s.m i d
    changesOnly [.engines, .fresh, .timers] s.m m ∧ m.ctx? i c = some { x.on with rdyAt := s.m.now + fcUnits (1 + x'.flits) } ∧
    ((collOf s.m i d).cnt0 = 0 →
      m.deadline (collTimer i d (collOf s.m i d).round) = some (s.m.now + usUnits (s.m.reg s.gen (engKey i 0x0C)))) ∧
    collOf m i d = { collOf s.m i d with cnt0 := (collOf s.m i d).cnt0 + 1, local_ := ((collOf s.m i d).local_ + 1) % 65536 } ∧
    (∀ b, ¬(accAddr x' (collOf s.m i d).round ≤ b ∧ b < accAddr x' (collOf s.m i d).round + 64 * x'.flits) →
      Mem.read1 (m.eng i).scratch b = Mem.read1 (s.m.eng i).scratch b) ∧
    ((collOf s.m i d).cnt0 = 0 → ∀ j, j < 64 * x'.flits → accAddr x' (collOf s.m i d).round + j < 0x8000 →
      Mem.read1 (m.eng i).scratch (accAddr x' (collOf s.m i d).round + j) =
        Mem.read1 (s.m.eng i).scratch ((x.sreg (fSA w)).toNat + j))

/-- COPEN (R342): this context is the descriptor's root. -/
def copenRow : Prop := ∀ (i c : Nat) (s : State) (x : Ctx) (w : Nat), canIssue s i c 0x32 false x w → fld w 21 0 = 0 →
  (descOf s.gen s.m i (fld w 25 22)).valid = true →
  Yields (.copen i c) s fun m =>
    m = ranWith s.m i c 1 { x.on with roots := x.roots ++ [fld w 25 22] } fun e =>
      { e with coll := e.coll.put (fld w 25 22) { collOf s.m i (fld w 25 22) with root := some c } }

/-- WAIT (R314): a count that is there is taken at once, the timer's flag is taken once, and otherwise the context waits. -/
def waitRow : Prop := ∀ (i c : Nat) (s : State) (x : Ctx) (w : Nat), canIssue s i c 0x38 true x w → fld w 20 16 = 0 →
  fld w 15 0 ≠ 0 → (fld w 25 21 = 31 → fld w 15 0 = 1) →
  Yields (.wait i c) s fun m =>
    let ev := fld w 25 21
    let n := fld w 15 0
    let v := (s.m.eng i).ev.getD ev 0
    m = if ev = 31 then
        ranWith s.m i c 1 (if x.flag then { x.anew (wdOf s i) with flag := false }
          else { x.anew (wdOf s i) with st := .waitEvent 31 1 }) id
      else if n ≤ v then ranWith s.m i c 1 (x.anew (wdOf s i)) fun e => { e with ev := e.ev.put ev (v - n) }
      else ranWith s.m i c 1 { x.anew (wdOf s i) with st := .waitEvent ev n } id

/-- EVSIG (R315) with no context waiting: the counter adds and stops at 65,535, which EV_SAT shows. -/
def evsigRow : Prop := ∀ (i c : Nat) (s : State) (x : Ctx) (w : Nat), canIssue s i c 0x39 false x w → fld w 20 16 = 0 →
  fld w 25 21 ≠ 31 → (∀ k y, s.m.ctx? i k = some y → ∀ e n, y.st ≠ .waitEvent e n) →
  Yields (.evsig i c) s fun m =>
    let v := (s.m.eng i).ev.getD (fld w 25 21) 0 + fld w 15 0
    m = ranWith s.m i c 1 x.on fun e => { e with ev := e.ev.put (fld w 25 21) (min v 65535), evSat := e.evSat || 65535 < v }

def timerRow : Prop := ∀ (i c : Nat) (s : State) (x : Ctx) (w : Nat), canIssue s i c 0x3A false x w → fld w 25 21 = 0 →
  fld w 15 0 = 0 →
  Yields (.timer i c) s fun m => m = ranWith s.m i c 1 { x.on with timer := some ((x.sreg (fSA w)).toNat, s.m.now) } id

def yieldRow : Prop := ∀ (i c : Nat) (s : State) (x : Ctx) (w : Nat), canIssue s i c 0x3B true x w → fld w 25 0 = 0 →
  Yields (.yield i c) s fun m => m = ranWith s.m i c 1 (x.anew (wdOf s i)) id

/-- MFS (R313): the eight special values. -/
def mfsRow : Prop := ∀ (i c : Nat) (s : State) (x : Ctx) (w : Nat), canIssue s i c 0x3C false x w → fld w 20 5 = 0 →
  fld w 4 0 ≤ 7 →
  Yields (.mfs i c) s fun m =>
    let v : Nat := match fld w 4 0 with
      | 0 => c
      | 1 => penOf s.gen s.m i
      | 2 => s.m.time.ft / 65536
      | 3 => x.ownerVport.toNat * 65536 + x.ownerSrc.toNat
      | 4 => x.entry
      | 5 => (x.ops.filter fun o => o.1 < 8).length
      | 6 => x.rq.length
      | _ => (s.m.eng i).aband
    m = ranWith s.m i c 1 (x.setS (fSD w) (BitVec.ofNat 64 v)).on id

/-- MFC (R308): an event counter of the host NI, read without clearing it. -/
def mfcRow : Prop := ∀ (i c : Nat) (s : State) (x : Ctx) (w : Nat), canIssue s i c 0x3D false x w → fld w 15 0 = 0 →
  Yields (.mfc i c) s fun m => m = ranWith s.m i c 2
    (x.setS (fSD w) (BitVec.ofNat 64 (s.m.reg s.gen (key (0xA200 + engNi s.gen i) ((x.sreg (fSA w)).toNat % 64))))).on id

/-! #### The turn to issue -/

/-- The engine instructions with their opcodes (R308). -/
def engineOps : List ((Nat → Nat → Instr) × Nat) :=
  [(.alu, 0x00), (.addi, 0x01), (.andi, 0x02), (.ori, 0x03), (.xori, 0x04), (.shi, 0x05), (.lui, 0x06), (.slti, 0x07), (.beq, 0x08),
   (.bne, 0x09), (.blt, 0x0A), (.bge, 0x0B), (.bltu, 0x0C), (.bgeu, 0x0D), (.jal, 0x0E), (.jalr, 0x0F), (.ld, 0x10), (.lds, 0x11),
   (.st, 0x12), (.wld, 0x13), (.wst, 0x14), (.xtr, 0x18), (.spl, 0x19), (.wget, 0x1A), (.wput, 0x1B), (.wop, 0x1C), (.send, 0x20),
   (.sendl, 0x21), (.recv, 0x22), (.finish, 0x23), (.mrd, 0x28), (.mwr, 0x29), (.mamo, 0x2A), (.mrds, 0x2B), (.mwait, 0x2C),
   (.wred, 0x30), (.contrib, 0x31), (.copen, 0x32), (.wait, 0x38), (.evsig, 0x39), (.timer, 0x3A), (.yield, 0x3B), (.mfs, 0x3C),
   (.mfc, 0x3D)]

/-- R304: an instruction issues in the fc in which its context's turn comes: the row lets time go on to it, and does there what it
does in a turn that has come. -/
def issueTurnRow : Prop := ∀ (i c t : Nat) (x : Ctx) (s : State), ∀ y ∈ engineOps, s.gen.hasEngine i = true → c < 8 →
  s.m.ctx? i c = some x → ((s.m.eng i).fs = .running ∨ (s.m.eng i).fs = .stopping) →
  s.m.awake (s.gen.niDom (engNi s.gen i)) = true →
  (s.m.eng i).nextIssue s.m.now = some (t, c) → (s.m.advanceTo t).now = t → (s.m.eng i).fetch x.pc / 2 ^ 26 = y.2 →
  exec (y.1 i c) s = exec (y.1 i c) { s with m := s.m.advanceTo t }

/-- R304: out of its turn, or where the engine has no ready context, no instruction issues. -/
def notTurnRow : Prop := ∀ (i c : Nat) (s : State), ∀ y ∈ engineOps, s.gen.hasEngine i = true → c < 8 →
  (∀ t, (s.m.eng i).nextIssue s.m.now ≠ some (t, c)) → Yields (y.1 i c) s fun m => m = s.m

/-- R304: the turn goes to a ready context in the first fc in which the issue slot is free and one is ready, and of those ready
then to the first in rotation from the context after the one that issued last. -/
def rotationRow : Prop := ∀ (e : Engine) (now t c : Nat), e.nextIssue now = some (t, c) →
  (∃ x : Ctx, (c, x) ∈ e.ctxs ∧ x.st = .ready ∧ x.rdyAt ≤ t) ∧ now ≤ t ∧ e.free ≤ t ∧
  (∀ u, now ≤ u → e.free ≤ u → (∃ (k : Nat) (x : Ctx), (k, x) ∈ e.ctxs ∧ x.canIssue = true ∧ x.rdyAt ≤ u) → t ≤ u) ∧
  ∀ (k : Nat) (x : Ctx), k < 8 → (k, x) ∈ e.ctxs → x.canIssue = true → x.rdyAt ≤ t →
    (c + 7 - e.lastCtx % 8) % 8 ≤ (k + 7 - e.lastCtx % 8) % 8

/-! #### Faults of a context -/

/-- Every row of an engine instruction. -/
def engineRows : List (Nat → Nat → Instr) :=
  [.alu, .addi, .andi, .ori, .xori, .shi, .lui, .slti, .beq, .bne, .blt, .bge, .bltu, .bgeu, .jal, .jalr, .ld, .lds, .st, .wld,
   .wst, .xtr, .spl, .wget, .wput, .wop, .send, .sendl, .recv, .finish, .mrd, .mwr, .mamo, .mrds, .mwait, .wred, .contrib,
   .copen, .wait, .evsig, .timer, .yield, .mfs, .mfc]

/-- A context that faulted (R347, R348): the last record names code, context and PC, the first record is kept, the count
rises, and the context ends with what it held dropped. -/
def contextFaulted (s : State) (m : Mach) (i c code info : Nat) (x : Ctx) : Prop :=
  let r := faultRecord code c x.pc x.ownerSrc x.ownerVport info
  m.reg s.gen (engKey i 7) = r ∧ m.reg s.gen (engKey i 6) = wrapped s.gen s.m (engKey i 6) 1 ∧
  m.reg s.gen (engKey i 5) = (if s.m.reg s.gen (engKey i 5) = 0 then r else s.m.reg s.gen (engKey i 5)) ∧
  (m.ctx? i c).map (·.st) = some .ending ∧ (m.ctx? i c).bind (·.inv) = none ∧
  ∀ q ∈ (m.eng i).sendQ, q.ctx ≠ c

/-- R308, R346: a reserved opcode faults ILLEGAL_OP, whichever row is tried. -/
def illegalOpRow : Prop := ∀ (i c : Nat) (s : State) (x : Ctx) (w : Nat) (instr : Nat → Nat → Instr), instr ∈ engineRows →
  canIssue s i c (w / 2 ^ 26) true x w → engOpKnown (w / 2 ^ 26) = false → i < 0x1000 → engNi s.gen i < 127 → x.roots = [] →
  Yields (instr i c) s fun m => contextFaulted s m i c 0x01 0 x

/-- R310: a taken branch to an address outside the store faults PC_RANGE. -/
def pcRangeRow : Prop := ∀ (i c : Nat) (s : State) (x : Ctx) (w : Nat), canIssue s i c 0x08 false x w → fld w 15 13 = 0 →
  x.sreg (fSD w) = x.sreg (fSA w) → (branchTarget x w < 0 ∨ 4095 < branchTarget x w) → i < 0x1000 → engNi s.gen i < 127 →
  x.roots = [] → Yields (.beq i c) s fun m => contextFaulted s m i c 0x02 0 x

/-! ### Contexts -/

/-- START_CTX (R317, R319, R350): on a RUNNING engine a start of the Shuttle at the entry joins the queue, which with 16 waiting
refuses it and counts INV_FULL; on any other it has no effect. The write is answered MG_OK. -/
def startCtxRow : Prop := ∀ (i entry : Nat) (s : State), s.gen.hasEngine i = true →
  Yields (.startCtx i entry) s fun m =>
    m = (if (s.m.eng i).fs = .running then
        (if (s.m.eng i).invQ.length < 16 then
          s.m.updE i fun e => { e with invQ := e.invQ ++ [⟨entry % 16, 0, [0, 0, 0], 0, s.m.fid s.gen 0, 0, none, []⟩] }
        else s.m.cntN s.gen (engNi s.gen i) 0x34)
      else s.m).emit (.status 0)

/-- R5: START_CTX of an engine that was not generated is refused with OBJECT_ABSENT. -/
def startCtxAbsentRow : Prop := ∀ (i entry : Nat) (s : State), s.gen.hasEngine i = false →
  Yields (.startCtx i entry) s fun m => m = s.m.emit (.status 1)

/-- CONTEXT_ALLOCATE (R317, R318): the oldest start takes the lowest free context: PC from its entry point, s1 to s3 its
arguments, s4 its length, w0 its header, its payload in the inbox. -/
def contextAllocateRow : Prop := ∀ (i c : Nat) (s : State) (q : Start) (rest : List Start), s.gen.hasEngine i = true →
  s.m.engines.has i = true → (s.m.eng i).fs = .running → (s.m.eng i).invQ = q :: rest → q.args.length = 3 →
  (s.m.eng i).ctxs.lowestFree 0 (ctxMax s.gen s.m i) = some c →
  Yields (.contextAllocate i) s fun m =>
    changesOnly [.engines] s.m m ∧ (∀ j, j ≠ i → m.eng j = s.m.eng j) ∧ (m.eng i).invQ = rest ∧
    ∃ y, m.ctx? i c = some y ∧ y.pc = s.m.cfg s.gen (engKey i (0x10 + q.entry)) % 4096 ∧ y.st = .ready ∧
      y.sreg 1 = q.args.getD 0 0 ∧ y.sreg 2 = q.args.getD 1 0 ∧ y.sreg 3 = q.args.getD 2 0 ∧
      y.sreg 4 = BitVec.ofNat 64 q.len ∧ y.wide 0 = q.w0 ∧ y.inv = q.inv ∧ y.ownerSrc = q.src ∧ y.ownerVport = q.vport ∧
      (∀ k, k ≠ c → m.ctx? i k = s.m.ctx? i k)

/-- CONTEXT_END (R322): an ending context with nothing outstanding is FREE again; the others stay. -/
def contextEndRow : Prop := ∀ (i c : Nat) (s : State) (x : Ctx), s.gen.hasEngine i = true → c < 8 →
  s.m.engines.has i = true → s.m.ctx? i c = some x → x.st = .ending → x.ops = [] → x.sends = 0 → (s.m.eng i).fs = .running →
  s.m.sh.job = none → (∀ q ∈ (s.m.eng i).sendQ, q.ctx ≠ c) →
  Yields (.contextEnd i c) s fun m => m = s.m.updE i fun e => { e with ctxs := e.ctxs.del c }

/-- CONTEXT_TIMER_FIRE (R314, R316): in the first fc after TIMER in which fabric time has reached the compare value the timer is
spent; a context that waits for it is ready in the next fc, any other finds its flag set. -/
def contextTimerFireRow : Prop := ∀ (i c t armed : Nat) (s : State) (x : Ctx), s.gen.hasEngine i = true → c < 8 →
  s.m.engines.has i = true → s.m.ctx? i c = some x → x.timer = some (t, armed) →
  Yields (.contextTimerFire i c) s fun m =>
    let u := (s.m.advanceTo (armed + fcUnits 1)).advanceFt (nsUnits t)
    m = u.updE i fun e => { e with ctxs := e.ctxs.upd c fun _ => match x.st with
      | .waitEvent 31 _ => { x with timer := none, flag := false, st := .ready, rdyAt := u.now + fcUnits 1 }
      | _ => { x with timer := none, flag := true } }

/-- WATCHDOG (R346): a context past its limit faults. -/
def watchdogRow : Prop := ∀ (i c : Nat) (s : State) (x : Ctx), s.gen.hasEngine i = true → c < 8 →
  s.m.engines.has i = true → s.m.ctx? i c = some x → x.wd ≠ 0 → x.wd < x.issued → i < 0x1000 → engNi s.gen i < 127 →
  x.roots = [] → Yields (.watchdog i c) s fun m => contextFaulted s m i c 0x09 0 x

/-- COLL_TIMEOUT (R342, R350) of ROUND at a descriptor that is no root, with no complete round waiting behind: an abandoned
contribution of zeros leaves for the parent and ROUND goes on. -/
def collTimeoutRow : Prop := ∀ (i d a : Nat) (s : State), s.gen.hasEngine i = true → s.m.engines.has i = true → d < 16 →
  s.m.deadline (collTimer i d (collOf s.m i d).round) = some a →
  (∀ b, s.m.deadline (collTimer i d ((collOf s.m i d).round + 1)) = some b → a ≤ b) →
  (descOf s.gen s.m i d).isRoot = false → (collOf s.m i d).abandonNext = false →
  (collOf s.m i d).cnt1 < (descOf s.gen s.m i d).expect →
  Yields (.collTimeout i d) s fun m =>
    let x := descOf s.gen s.m i d
    let y := collOf s.m i d
    changesOnly [.engines, .time, .timers] s.m m ∧ a ≤ m.now ∧ m.deadline (collTimer i d y.round) = none ∧
    (∀ j, j ≠ i → m.eng j = s.m.eng j) ∧
    collOf m i d = { y with round := (y.round + 1) % 65536, cnt0 := y.cnt1, cnt1 := 0 } ∧
    (m.eng i).scratch = (s.m.eng i).scratch ∧
    (m.eng i).sendQ = (s.m.eng i).sendQ ++ [⟨8, collPkt 0x50 x.parent false x.parentSlot x.parentDesc y.round (penOf s.gen s.m i) true
      (List.replicate (64 * x.flits) 0), false⟩]

/-- COLL_TIMEOUT of ROUND + 1 that ends before ROUND's: the round is abandoned once it becomes current (R342, by log 168). -/
def collTimeoutNextRow : Prop := ∀ (i d b : Nat) (s : State), s.gen.hasEngine i = true → s.m.engines.has i = true → d < 16 →
  s.m.deadline (collTimer i d ((collOf s.m i d).round + 1)) = some b →
  (∀ a, s.m.deadline (collTimer i d (collOf s.m i d).round) = some a → b < a) →
  Yields (.collTimeout i d) s fun m =>
    changesOnly [.engines, .time, .timers] s.m m ∧ b ≤ m.now ∧ (∀ j, j ≠ i → m.eng j = s.m.eng j) ∧
    collOf m i d = { collOf s.m i d with abandonNext := true } ∧ (m.eng i).sendQ = (s.m.eng i).sendQ

/-- ATOMIC_LOCK_ACQUIRE (R333, R334): the oldest entry of an unlocked block locks it and asks for its 64 bytes. -/
def atomicLockAcquireRow : Prop := ∀ (i n : Nat) (s : State) (a : AtEnt), s.gen.hasEngine i = true → n < 64 →
  (s.m.eng i).atom.get? n = some a → a.phase = 0 → (lockedBlocks s.gen s.m (engNi s.gen i)).contains a.block = false →
  (∀ e ∈ (s.m.eng i).atom, e.2.block = a.block → a.ord ≤ e.2.ord) → agentGone s.m (engNi s.gen i) = false →
  Yields (.atomicLockAcquire i n) s fun m =>
    m = memPush (s.m.updE i fun e => { e with atom := e.atom.put n { a with phase := 1 } }) (engNi s.gen i)
      (memReq s.gen s.m (engNi s.gen i) 0x00 (64 * a.block) (2048 + engSlot s.gen i * 512 + n * 8) 0 [])

/-- ENG_DRAIN_TIMEOUT (R345, R347, R350), once ENG_DRAIN_TIMEOUT has passed since STOP: the engine is STOPPED with no start left,
no context but those whose memory operations are in flight, and those are ending; every queued invocation and every context
with one is answered STOPPED; with a context running it records STOP_KILL. -/
def engDrainTimeoutRow : Prop := ∀ (i d : Nat) (s : State), s.gen.hasEngine i = true → s.m.engines.has i = true →
  (s.m.eng i).fs = .stopping → s.m.deadline (.drain (0x4000 + i)) = some d → s.m.sh.job = none → i < 0x1000 → engNi s.gen i < 127 →
  ((s.m.eng i).ctxs.map (·.1)).Nodup →
  Yields (.engDrainTimeout i) s fun m => (m.eng i).fs = .stopped ∧ (m.eng i).invQ = [] ∧ d ≤ m.now ∧
    m.deadline (.drain (0x4000 + i)) = none ∧
    (∀ c x, c < 8 → (m.eng i).ctxs.get? c = some x → x.st = .ending ∧ x.ops ≠ [] ∧ x.inv = none) ∧
    ((∃ c x, c < 8 ∧ s.m.ctx? i c = some x ∧ x.st ≠ .ending) →
      m.reg s.gen (engKey i 7) / 2 ^ 56 = 0x0D) ∧
    (s.m.nis.has (engNi s.gen i) = true → ∀ h : Hdr, h.k ≠ 0 →
      ((∃ q ∈ (s.m.eng i).invQ, q.inv = some h) ∨ ∃ c x, c < 8 ∧ s.m.ctx? i c = some x ∧ x.inv = some h) →
      rspPkt h (s.m.fid s.gen (engNi s.gen i)) stStopped ∈ (m.ni (engNi s.gen i)).tx.internal) ∧
    (∀ j, j ≠ i → m.eng j = s.m.eng j) ∧
    changesOnly [.engines, .nis, .regs, .hw, .logs, .time, .timers] s.m m

end Sys2Proof.Machine

open Sys2Proof.Machine in
/-- ALU, ADDI, ANDI, ORI, XORI, SHI, LUI and SLTI (R302, R304, R308, R309): the turn to issue; the result
in SD, nothing else but PC and count. -/
def Obligations.EngineScalar : Prop :=
  issueTurnRow ∧ notTurnRow ∧ rotationRow ∧ aluRow ∧ addiRow ∧ andiRow ∧ oriRow ∧ xoriRow ∧ shiRow ∧ luiRow ∧ sltiRow

open Sys2Proof.Machine in
/-- BEQ, BNE, BLT, BGE, BLTU, BGEU, JAL and JALR (R308, R310). -/
def Obligations.EngineJumps : Prop :=
  beqRow ∧ bneRow ∧ bltRow ∧ bgeRow ∧ bltuRow ∧ bgeuRow ∧ jalRow ∧ jalrRow

open Sys2Proof.Machine in
/-- LD, LDS, ST, WLD and WST (R302, R305, R311). -/
def Obligations.EngineScratch : Prop := ldRow ∧ ldsRow ∧ stRow ∧ wldRow ∧ wstRow

open Sys2Proof.Machine in
/-- XTR, SPL, WGET, WPUT, WOP and WRED (R308, R311, R338). -/
def Obligations.EngineWide : Prop := xtrRow ∧ splRow ∧ wgetRow ∧ wputRow ∧ wopRow ∧ wredRow

open Sys2Proof.Machine in
/-- SEND, SENDL, RECV and FINISH (R322 to R326). -/
def Obligations.EngineSends : Prop :=
  sendRow ∧ sendFullRow ∧ sendlRow ∧ recvEmptyRow ∧ recvRow ∧ finishRow ∧ finishInvRow

open Sys2Proof.Machine in
/-- MRD, MWR, MRDS, MWAIT, MAMO and ATOMIC_LOCK_ACQUIRE (R327 to R334). -/
def Obligations.EngineMemory : Prop := mrdRow ∧ mwrRow ∧ mrdsRow ∧ mwaitRow ∧ mamoRow ∧ atomicLockAcquireRow

open Sys2Proof.Machine in
/-- CONTRIB, COPEN, WAIT, EVSIG, TIMER, YIELD, MFS, MFC and COLL_TIMEOUT (R313 to R316, R337, R342). -/
def Obligations.EngineEvents : Prop :=
  contribRow ∧ copenRow ∧ waitRow ∧ evsigRow ∧ timerRow ∧ yieldRow ∧ mfsRow ∧ mfcRow ∧ collTimeoutRow ∧ collTimeoutNextRow

open Sys2Proof.Machine in
/-- START_CTX, CONTEXT_ALLOCATE, CONTEXT_END, CONTEXT_TIMER_FIRE and ENG_DRAIN_TIMEOUT (R317 to R322, R345). -/
def Obligations.EngineContexts : Prop :=
  startCtxRow ∧ startCtxAbsentRow ∧ contextAllocateRow ∧ contextEndRow ∧ contextTimerFireRow ∧ engDrainTimeoutRow

open Sys2Proof.Machine in
/-- WATCHDOG, a reserved opcode and a branch out of the store: the context faults and is recorded (R310, R346 to R348). -/
def Obligations.EngineFaults : Prop := watchdogRow ∧ illegalOpRow ∧ pcRangeRow

namespace Sys2Proof.Machine

open Sys2Proof

/-! ### Packets at their destination NI -/

/-- A good unicast packet of classes 1 to 3 whose flow has entry `f` at NI l, not fabric-internal and no completion a
router made. -/
abbrev ordinary (s : State) (l : Nat) (p : Pkt) (f : DstFlow) : Prop :=
  s.gen.hasNi l = true ∧ s.m.nis.has l = true ∧ p.hdr.k ≠ 0 ∧ p.hdr.mcast = false ∧ (s.m.ni l).ep.waiting = false ∧
  isInternal p.hdr.c = false ∧ Hdr.isGenerated p.hdr = false ∧ dstOf s.m l p.hdr.flow = some f ∧ f.e < 65536

/-- R76: it is the packet the flow expects, and it is good. -/
abbrev inOrder (s : State) (l : Nat) (p : Pkt) (f : DstFlow) : Prop :=
  ordinary s l p f ∧ p.isBad = false ∧ p.hdr.seq.toNat = f.e

/-- A request at an NI whose agent is there and may be asked (R235, R266, R268). -/
abbrev agentReady (s : State) (l : Nat) (p : Pkt) : Prop :=
  l ≠ 0 ∧ (s.m.ni l).fs.down = false ∧ (s.m.ni l).ep.st = .opened ∧ (p.hdr.np = true → s.gen.kind l ≠ 1)

/-- NI l keeps everything but what a delivery changes: the NIs beside it are the same, and only registers and NIs change. -/
def atNi (l : Nat) (a b : Mach) : Prop := changesOnly [.regs, .nis] a b ∧ ∀ j, j ≠ l → b.ni j = a.ni j

/-- The endpoint port after a packet joined an ejection FIFO. -/
def Ep.pushed (e : Ep) (vn : Nat) (x : EjPkt) : Ep := { e with eject := e.eject.put vn (e.eject.getD vn [] ++ [x]) }

/-- R76, R255: the packet joins the ejection FIFO of its VN, and its flow expects the next SEQ; of VN M the wait for egress credit
may begin (R73). -/
def delivered (l : Nat) (p : Pkt) (a b : Mach) : Prop :=
  changesOnly (if p.hdr.v = 4 then [.regs, .nis, .timers] else [.regs, .nis]) a b ∧ (∀ j, j ≠ l → b.ni j = a.ni j) ∧
  (b.ni l).ep = (a.ni l).ep.pushed p.hdr.v ⟨p, false, none, (a.ni l).rx.arrived.contains p⟩ ∧
  (dstOf b l p.hdr.flow).map (·.e) = some ((p.hdr.seq.toNat + 1) % 65536)

/-- A row whose packets go to the agent. -/
def agentRow (instr : Nat → Pkt → Instr) (lo hi : Nat) : Prop :=
  ∀ (l : Nat) (p : Pkt) (s : State) (f : DstFlow), inOrder s l p f → between lo hi p.hdr.c = true → agentReady s l p →
  pathOf s.gen s.m l p.hdr = none → Yields (instr l p) s (delivered l p s.m)

def rdRow : Prop := agentRow .rd 0x00 0x00
def rdIoRow : Prop := agentRow .rdIo 0x01 0x01
def rdCfgRow : Prop := agentRow .rdCfg 0x02 0x02
def wrNpRow : Prop := agentRow .wrNp 0x20 0x20
def wrPRow : Prop := agentRow (fun l p => .wrP l p false) 0x21 0x21
def wrNpPartRow : Prop := agentRow .wrNpPart 0x22 0x22
def wrPPartRow : Prop := agentRow .wrPPart 0x23 0x23
def wrInlinePRow : Prop := agentRow .wrInlineP 0x24 0x24
def wrCfgRow : Prop := agentRow .wrCfg 0x25 0x25
def cohNRow : Prop := agentRow .cohN 0x60 0x7F
def msgRow : Prop := agentRow .msg 0x80 0x80
def msgInlineRow : Prop := agentRow .msgInline 0x81 0x81
def msgIntrRow : Prop := agentRow .msgIntr 0x82 0x82

/-- The rows of requests with the CMDs they stand for. -/
def requestRows : List ((Nat → Pkt → Instr) × Nat × Nat) :=
  [(.rd, 0x00, 0x00), (.rdIo, 0x01, 0x01), (.rdCfg, 0x02, 0x02), (.rdScratch, 0x03, 0x03), (.wrNp, 0x20, 0x20),
   (.wrNpPart, 0x22, 0x22), (.wrPPart, 0x23, 0x23), (.wrInlineP, 0x24, 0x24), (.wrCfg, 0x25, 0x25), (.wrScratch, 0x26, 0x26),
   (.atAdd, 0x40, 0x40), (.atSwap, 0x41, 0x41), (.atCas, 0x42, 0x42), (.atSmin, 0x43, 0x43), (.atSmax, 0x44, 0x44),
   (.atUmin, 0x45, 0x45), (.atUmax, 0x46, 0x46), (.atAnd, 0x47, 0x47), (.atOr, 0x48, 0x48), (.atXor, 0x49, 0x49),
   (.atFadd, 0x4A, 0x4A), (.collContrib, 0x50, 0x50), (.collResult, 0x51, 0x51), (.engInvoke, 0x52, 0x52),
   (.engEvent, 0x53, 0x53), (.cohN, 0x60, 0x7F), (.msg, 0x80, 0x80), (.msgInline, 0x81, 0x81), (.msgIntr, 0x82, 0x82)]

/-- R76: a packet the flow has had already is discarded, and its flow stays where it is. -/
def duplicateRow : Prop := ∀ x ∈ requestRows, ∀ (l : Nat) (p : Pkt) (s : State) (f : DstFlow), ordinary s l p f →
  p.isBad = false → between x.2.1 x.2.2 p.hdr.c = true → 32768 ≤ seqDist p.hdr.seq.toNat f.e →
  Yields (x.1 l p) s fun m => atNi l s.m m ∧ (m.ni l).ep = (s.m.ni l).ep ∧ (m.ni l).tx = (s.m.ni l).tx ∧
    (dstOf m l p.hdr.flow).map (·.e) = some f.e

/-- R76, R77: a packet ahead of the one expected is discarded; with no NACK outstanding one for E leaves, CAUSE 2. -/
def gapRow : Prop := ∀ x ∈ requestRows, ∀ (l : Nat) (p : Pkt) (s : State) (f : DstFlow), ordinary s l p f →
  p.isBad = false → between x.2.1 x.2.2 p.hdr.c = true → 1 ≤ seqDist p.hdr.seq.toNat f.e → seqDist p.hdr.seq.toNat f.e < 32768 →
  f.nack = none →
  Yields (x.1 l p) s fun m => atNi l s.m m ∧ (m.ni l).ep = (s.m.ni l).ep ∧
    (m.ni l).tx = { (s.m.ni l).tx with internal := (s.m.ni l).tx.internal ++ [nackPkt (s.m.fid s.gen l) p.hdr.flow f.e 2] } ∧
    (dstOf m l p.hdr.flow).map (·.e) = some f.e ∧ ((dstOf m l p.hdr.flow).bind (·.nack)).isSome = true

/-- R76, R254: the expected packet with a poisoned header flit is discarded and asked for again, CAUSE 0. -/
def badRow : Prop := ∀ x ∈ requestRows, ∀ (l : Nat) (p : Pkt) (s : State) (f : DstFlow), ordinary s l p f →
  p.badHdr = true → between x.2.1 x.2.2 p.hdr.c = true → p.hdr.seq.toNat = f.e → f.nack = none →
  Yields (x.1 l p) s fun m => atNi l s.m m ∧ (m.ni l).ep = (s.m.ni l).ep ∧
    (m.ni l).tx = { (s.m.ni l).tx with internal := (s.m.ni l).tx.internal ++ [nackPkt (s.m.fid s.gen l) p.hdr.flow f.e 0] } ∧
    (dstOf m l p.hdr.flow).map (·.e) = some f.e

/-! #### Atomics -/

/-- R334: the path of engine i has no entry that an operation on this block may join, and entry n is its lowest free one. -/
abbrev pathFree (s : State) (i n : Nat) (p : Pkt) : Prop :=
  s.m.engines.has i = true ∧ i < 0x1000 ∧ (s.m.eng i).atom.lowestFree 0 64 = some n ∧
  ((s.m.eng i).atom.all fun e => !(e.2.block == p.hdr.a / 64 && e.2.ops.length < 8 &&
    (e.2.phase == 1 || (e.2.phase == 2 && (unsentWrite s.gen s.m i e.1).isSome)))) = true

/-- R330, R334: an atomic that its NI's path takes waits there in an entry of its 64-byte block, behind those that came
before it. -/
def atomicRow (instr : Nat → Pkt → Instr) (cmd : Nat) : Prop :=
  ∀ (l i n : Nat) (p : Pkt) (s : State) (f : DstFlow), inOrder s l p f → p.hdr.c = cmd → agentReady s l p →
  pathOf s.gen s.m l p.hdr = some i → (s.m.ni l).ep.eject.getD p.hdr.v [] = [] → atomRefused p = false → pathFree s i n p →
  Yields (instr l p) s fun m => changesOnly [.regs, .nis, .engines] s.m m ∧ (m.ni l).ep = (s.m.ni l).ep ∧
    ∃ ord, (∀ e ∈ (s.m.eng i).atom, e.2.ord < ord) ∧
      m.engines = s.m.engines.upd i fun e => { e with atom := e.atom.put n ⟨p.hdr.a / 64, ord, 0, [atomOp p]⟩ }

def atAddRow : Prop := atomicRow .atAdd 0x40
def atSwapRow : Prop := atomicRow .atSwap 0x41
def atCasRow : Prop := atomicRow .atCas 0x42
def atSminRow : Prop := atomicRow .atSmin 0x43
def atSmaxRow : Prop := atomicRow .atSmax 0x44
def atUminRow : Prop := atomicRow .atUmin 0x45
def atUmaxRow : Prop := atomicRow .atUmax 0x46
def atAndRow : Prop := atomicRow .atAnd 0x47
def atOrRow : Prop := atomicRow .atOr 0x48
def atXorRow : Prop := atomicRow .atXor 0x49
def atFaddRow : Prop := atomicRow .atFadd 0x4A

/-- The atomics with the CMDs they stand for. -/
def atomicRows : List ((Nat → Pkt → Instr) × Nat) :=
  [(.atAdd, 0x40), (.atSwap, 0x41), (.atCas, 0x42), (.atSmin, 0x43), (.atSmax, 0x44), (.atUmin, 0x45), (.atUmax, 0x46), (.atAnd, 0x47),
   (.atOr, 0x48), (.atXor, 0x49), (.atFadd, 0x4A)]

/-- R334: an atomic on a block whose locking entry has room and has not presented its write joins that entry: before the block is
read it waits among its operations; after, it is applied to the write that waits, and its old value is kept. -/
def atomicJoinRow : Prop := ∀ x ∈ atomicRows, ∀ (l i n : Nat) (a : AtEnt) (p : Pkt) (s : State) (f : DstFlow), inOrder s l p f →
  p.hdr.c = x.2 → agentReady s l p → pathOf s.gen s.m l p.hdr = some i → (s.m.ni l).ep.eject.getD p.hdr.v [] = [] →
  atomRefused p = false → s.m.engines.has i = true → i < 0x1000 →
  (s.m.eng i).atom.find? (fun e => e.2.block == p.hdr.a / 64 && e.2.ops.length < 8 &&
    (e.2.phase == 1 || (e.2.phase == 2 && (unsentWrite s.gen s.m i e.1).isSome))) = some (n, a) →
  Yields (x.1 l p) s fun m => changesOnly [.regs, .nis, .engines] s.m m ∧
    (a.phase = 1 → m.engines = s.m.engines.upd i fun e => { e with atom := e.atom.put n { a with ops := a.ops ++ [atomOp p] } }) ∧
    (a.phase = 2 → ∀ q, unsentWrite s.gen s.m i n = some q →
      let r := atomApplyAll [atomOp p] (q.data.headD 0).toNat
      m.engines = (s.m.engines.upd i fun e => { e with atom := e.atom.put n { a with ops := a.ops ++ r.2.2 } }) ∧
      (engNi s.gen i = l → (m.ni l).ep.mem = (s.m.ni l).ep.mem.map fun y => if y = q then
        { q with hdr := { q.hdr with be := q.hdr.be ||| BitVec.ofNat 64 r.2.1 }, data := [BitVec.ofNat 512 r.1] } else y))

/-- R332: the new memory value of an integer atomic on a w-bit operand. -/
def atomicResult (cmd : Nat) {w : Nat} (old a b : BitVec w) : BitVec w :=
  match cmd with
  | 0x40 => old + a
  | 0x41 => a
  | 0x42 => if old = a then b else old
  | 0x43 => if a.slt old then a else old
  | 0x44 => if old.slt a then a else old
  | 0x45 => if a.ult old then a else old
  | 0x46 => if old.ult a then a else old
  | 0x47 => old &&& a
  | 0x48 => old ||| a
  | _ => old ^^^ a

/-- R332: the model's integer atomics compute that. -/
def atomicValueRow : Prop := ∀ (cmd n : Nat) (old a b : BitVec (8 * n)), 0x40 ≤ cmd → cmd ≤ 0x49 → 1 ≤ n →
  atomicNew cmd n a.toNat b.toNat old.toNat = (atomicResult cmd old a b).toNat

/-- Byte `b` of a block. -/
def byteOf (v b : Nat) : Nat := v / 256 ^ b % 256

/-- The bytes an operation of an atomic path covers in its block. -/
def covers (o : AtOp) (b : Nat) : Prop := o.hdr.a % 64 ≤ b ∧ b < o.hdr.a % 64 + o.size

/-- R332, R333: of the block just read, the write enables exactly the bytes that operations cover, and the others are
written as they were read; every operation gets an old value, in order. -/
def atomicBlockRow : Prop := ∀ (ops : List AtOp) (block : Nat), block < 2 ^ 512 →
  (∀ o ∈ ops, o.hdr.a % 64 + o.size ≤ 64 ∧ 1 ≤ o.size) →
  let r := atomApplyAll ops block
  (∀ b, b < 64 → (r.2.1.testBit b = true ↔ ∃ o ∈ ops, covers o b)) ∧
  (∀ b, b < 64 → (∀ o ∈ ops, ¬covers o b) → byteOf r.1 b = byteOf block b) ∧ r.1 < 2 ^ 512 ∧
  r.2.2.map (·.hdr) = ops.map (·.hdr)

/-! #### Commands for an engine -/

/-- R299, R300: the packet is a command for engine i of NI l. -/
abbrev forEngine (s : State) (l i : Nat) (p : Pkt) : Prop :=
  l ≠ 0 ∧ l < 127 ∧ s.gen.kind l ≠ 1 ∧ s.gen.kind l ≠ 0 ∧ engineAddr s.gen s.m l p.hdr = some i ∧ (s.m.ni l).fs.down = false ∧
  (s.m.eng i).fs.down = false ∧ s.m.engines.has i = true ∧ i < 0x1000 ∧ engNi s.gen i = l

/-- RD_SCRATCH (R300, R305): the bytes asked for, or POISON where a word of them is poisoned. -/
def rdScratchRow : Prop := ∀ (l i : Nat) (p : Pkt) (s : State) (f : DstFlow), inOrder s l p f → p.hdr.c = 0x03 → forEngine s l i p →
  Yields (.rdScratch l p) s fun m => atNi l s.m m ∧ (m.ni l).ep = (s.m.ni l).ep ∧
    (m.ni l).tx.internal = (s.m.ni l).tx.internal ++
      [if (s.m.eng i).bad (p.hdr.a % 32768) p.hdr.n then rspPkt p.hdr (s.m.fid s.gen l) 6
       else rspDataPkt p.hdr (s.m.fid s.gen l) 0 ((List.range p.hdr.n).map fun j => Mem.read1 (s.m.eng i).scratch (p.hdr.a % 32768 + j))]

/-- WR_SCRATCH (R300, R305): exactly the written bytes change, and the write is answered OK. -/
def wrScratchRow : Prop := ∀ (l i : Nat) (p : Pkt) (s : State) (f : DstFlow), inOrder s l p f → p.hdr.c = 0x26 → forEngine s l i p →
  Mem.wf (s.m.eng i).scratch = true → p.hdr.a % 32768 + p.bytes.length ≤ 0x8000 →
  Yields (.wrScratch l p) s fun m => changesOnly [.regs, .nis, .engines] s.m m ∧
    (∀ b, Mem.read1 (m.eng i).scratch b =
      if p.hdr.a % 32768 ≤ b ∧ b < p.hdr.a % 32768 + p.bytes.length then p.bytes.getD (b - p.hdr.a % 32768) 0
      else Mem.read1 (s.m.eng i).scratch b) ∧
    (m.ni l).tx.internal = (s.m.ni l).tx.internal ++ [rspPkt p.hdr (s.m.fid s.gen l) 0]

/-- ENG_INVOKE (R317, R318): with invocations enabled and room, the invocation joins the queue. -/
def engInvokeRow : Prop := ∀ (l i : Nat) (p : Pkt) (s : State) (f : DstFlow), inOrder s l p f → p.hdr.c = 0x52 → forEngine s l i p →
  invokeEn s.gen s.m i = true → (s.m.eng i).invQ.length < 16 →
  Yields (.engInvoke l p) s fun m => changesOnly [.regs, .nis, .engines] s.m m ∧
    m.engines = s.m.engines.upd i fun e => { e with invQ := e.invQ ++ [
      { entry := p.hdr.csfFld 245 242, w0 := p.hdr.bits,
        args := [BitVec.ofNat 64 (p.hdr.csfFld 239 176), BitVec.ofNat 64 (p.hdr.csfFld 175 112), BitVec.ofNat 64 (p.hdr.csfFld 111 48)],
        len := p.hdr.n, src := p.hdr.src, vport := p.hdr.vport, inv := some p.hdr, data := p.bytes }] }

/-- ENG_INVOKE with invocations disabled is answered STOPPED (R319). -/
def engInvokeOffRow : Prop := ∀ (l i : Nat) (p : Pkt) (s : State) (f : DstFlow), inOrder s l p f → p.hdr.c = 0x52 →
  forEngine s l i p → invokeEn s.gen s.m i = false →
  Yields (.engInvoke l p) s fun m => changesOnly [.regs, .nis] s.m m ∧
    (m.ni l).tx.internal = (s.m.ni l).tx.internal ++ [rspPkt p.hdr (s.m.fid s.gen l) 8]

/-- ENG_EVENT (R315) with no context waiting: COUNT is added to the counter, which stops at 65,535. -/
def engEventRow : Prop := ∀ (l i : Nat) (p : Pkt) (s : State) (f : DstFlow), inOrder s l p f → p.hdr.c = 0x53 → forEngine s l i p →
  p.hdr.csfFld 246 246 = 0 → p.hdr.csfFld 241 237 ≠ 31 → (∀ k y, s.m.ctx? i k = some y → ∀ e n, y.st ≠ .waitEvent e n) →
  Yields (.engEvent l p) s fun m => changesOnly [.regs, .nis, .engines] s.m m ∧
    let v := (s.m.eng i).ev.getD (p.hdr.csfFld 241 237) 0 + p.hdr.csfFld 236 221
    m.engines = s.m.engines.upd i fun e =>
      { e with ev := e.ev.put (p.hdr.csfFld 241 237) (min v 65535), evSat := e.evSat || 65535 < v }

/-- ENG_EVENT that starts a context (R317), where such starts are enabled and there is room. -/
def engEventStartRow : Prop := ∀ (l i : Nat) (p : Pkt) (s : State) (f : DstFlow), inOrder s l p f → p.hdr.c = 0x53 →
  forEngine s l i p → p.hdr.csfFld 246 246 = 1 → eventStartEn s.gen s.m i = true → (s.m.eng i).invQ.length < 16 →
  Yields (.engEvent l p) s fun m => changesOnly [.regs, .nis, .engines] s.m m ∧
    m.engines = s.m.engines.upd i fun e => { e with invQ := e.invQ ++ [
      { entry := p.hdr.csfFld 245 242, w0 := p.hdr.bits, args := [BitVec.ofNat 64 (p.hdr.csfFld 236 221), 0, 0], len := p.hdr.n,
        src := p.hdr.src, vport := p.hdr.vport, inv := none, data := [] }] }

/-- COLL_CONTRIB (R337) for the current round, which it does not complete: one more contribution is counted. -/
def collContribRow : Prop := ∀ (l i : Nat) (p : Pkt) (s : State) (f : DstFlow), inOrder s l p f → p.hdr.c = 0x50 →
  forEngine s l i p → p.hdr.csfFld 241 241 = 0 → (descOf s.gen s.m i (p.hdr.csfFld 245 242)).valid = true →
  p.hdr.csfFld 239 224 = (collOf s.m i (p.hdr.csfFld 245 242)).round →
  p.bytes.length = 64 * (descOf s.gen s.m i (p.hdr.csfFld 245 242)).flits →
  (collOf s.m i (p.hdr.csfFld 245 242)).cnt0 + 1 < (descOf s.gen s.m i (p.hdr.csfFld 245 242)).expect →
  Yields (.collContrib l p) s fun m => changesOnly [.regs, .nis, .engines, .fresh, .timers] s.m m ∧
    let d := p.hdr.csfFld 245 242
    ((collOf s.m i d).cnt0 = 0 →
      m.deadline (collTimer i d (collOf s.m i d).round) = some (s.m.now + usUnits (s.m.reg s.gen (engKey i 0x0C)))) ∧
    collOf m i d = { collOf s.m i d with cnt0 := (collOf s.m i d).cnt0 + 1 } ∧ (m.eng i).sendQ = (s.m.eng i).sendQ

/-- COLL_RESULT (R340): the result is written at RES_ADDR, and the descriptor's event, where it has one, is signalled. -/
def collResultRow : Prop := ∀ (l i : Nat) (p : Pkt) (s : State) (f : DstFlow), inOrder s l p f → p.hdr.c = 0x51 →
  forEngine s l i p → p.hdr.csfFld 241 241 = 0 → (descOf s.gen s.m i (p.hdr.csfFld 245 242)).valid = true →
  p.bytes.length = 64 * (descOf s.gen s.m i (p.hdr.csfFld 245 242)).flits → Mem.wf (s.m.eng i).scratch = true →
  (descOf s.gen s.m i (p.hdr.csfFld 245 242)).res + p.bytes.length ≤ 0x8000 →
  (∀ k y, s.m.ctx? i k = some y → ∀ e n, y.st ≠ .waitEvent e n) →
  Yields (.collResult l p) s fun m => changesOnly [.regs, .nis, .engines] s.m m ∧
    let x := descOf s.gen s.m i (p.hdr.csfFld 245 242)
    (∀ b, Mem.read1 (m.eng i).scratch b = if x.res ≤ b ∧ b < x.res + p.bytes.length then p.bytes.getD (b - x.res) 0
      else Mem.read1 (s.m.eng i).scratch b) ∧
    (m.eng i).ev = if x.event ≤ 30 then (s.m.eng i).ev.put x.event (min ((s.m.eng i).ev.getD x.event 0 + 1) 65535)
      else (s.m.eng i).ev

/-! #### Completions -/

/-- R253, R255, R262: a completion of an agent's whole request frees its tag, shows its request and every earlier packet of
the request's flow delivered, and joins the ejection FIFO of VN P under the agent's own tag. -/
def responseRow (instr : Nat → Pkt → Instr) (cmd : Nat) : Prop :=
  ∀ (l : Nat) (p : Pkt) (s : State) (f : DstFlow) (e : TagEnt), inOrder s l p f → p.hdr.c = cmd →
  (s.m.ni l).tab.tags.get? p.hdr.tag.toNat = some e → e.org = .agent → e.part = 0 → e.fired = false → e.orphan = false →
  tagHeld s.m l p.hdr.tag.toNat = false → (s.m.ni l).ep.st = .opened →
  Yields (instr l p) s fun m => atNi l s.m m ∧
    (m.ni l).ep = (s.m.ni l).ep.pushed 2 ⟨{ p with hdr := { p.hdr with tag := e.agentTag } }, false,
      some ⟨e.req, e.issue, false, e.sampled⟩, (s.m.ni l).rx.arrived.contains p⟩ ∧
    (m.ni l).tab.tags = (s.m.ni l).tab.tags.del p.hdr.tag.toNat ∧
    (m.ni l).tab.retx = (s.m.ni l).tab.retx.filter fun x => !(x.pkt.hdr.flow == e.hdr.flow &&
      (x.pkt.hdr.seq.toNat == e.hdr.seq.toNat || seqBefore x.pkt.hdr.seq.toNat e.hdr.seq.toNat))

def rspRow : Prop := responseRow .rsp 0x90
def rspDataRow : Prop := responseRow .rspData 0x91
def rspDataInlineRow : Prop := responseRow .rspDataInline 0x92
def rspMgmtRow : Prop := responseRow .rspMgmt 0x93

/-! #### Fabric-internal packets -/

/-- A good fabric-internal packet at NI l (R54, R445). -/
abbrev internalOk (s : State) (l : Nat) (p : Pkt) (cmd : Nat) : Prop :=
  s.gen.hasNi l = true ∧ s.m.nis.has l = true ∧ p.hdr.c = cmd ∧ p.hdr.k ≠ 0 ∧ p.isBad = false ∧ (s.m.ni l).ep.waiting = false

/-- POSTED_ACK (R262): the named flow's packets up to FIRST_SEQ + COUNT_M1 leave the retransmit store and the queue of
packets to be sent again; nothing else of the NI's tables changes. -/
def postedAckRow : Prop := ∀ (l : Nat) (p : Pkt) (s : State), internalOk s l p 0xF0 →
  Yields (.postedAck l p) s fun m => atNi l s.m m ∧ (m.ni l).ep = (s.m.ni l).ep ∧
    let k := namedFlow s.gen s.m l p.hdr
    let x := (p.hdr.csfFld 239 224 + p.hdr.csfFld 223 220) % 65536
    let gone (q : Pkt) : Bool := q.hdr.flow == k && (q.hdr.seq.toNat == x || seqBefore q.hdr.seq.toNat x)
    (m.ni l).tab = { (s.m.ni l).tab with retx := (s.m.ni l).tab.retx.filter fun y => !gone y.pkt } ∧
    (m.ni l).tx = { (s.m.ni l).tx with retxQ := (s.m.ni l).tx.retxQ.filter fun y => !gone y }

/-- NACK_RETRY (R78) for a SEQ the flow still holds, its retry limit not reached: every held packet of the flow from that
SEQ on is sent again, in order. -/
def nackRetryRow : Prop := ∀ (l : Nat) (p : Pkt) (s : State), internalOk s l p 0xF1 →
  let k := namedFlow s.gen s.m l p.hdr
  let e := p.hdr.csfFld 239 224
  seqBefore e (nextSeq s.m l k) = true →
  seqBefore e (((heldOf (s.m.ni l) k).head?.map (·.pkt.hdr.seq.toNat)).getD (nextSeq s.m l k)) = false →
  (∀ x ∈ heldOf (s.m.ni l) k, x.pkt.hdr.seq.toNat = e → x.tries < niSet s.gen s.m l 0x15) → l < 127 →
  Yields (.nackRetry l p) s fun m => atNi l s.m m ∧ (m.ni l).ep = (s.m.ni l).ep ∧
    let again := ((heldOf (s.m.ni l) k).map (·.pkt)).filter fun q => !seqBefore q.hdr.seq.toNat e
    (m.ni l).tx = { (s.m.ni l).tx with retxQ := (s.m.ni l).tx.retxQ.filter (fun q => !again.contains q) ++ again } ∧
    (m.ni l).tab.retx.map (·.pkt) = (s.m.ni l).tab.retx.map (·.pkt)

/-- NACK_RETRY for a packet sent again RETRY_LIMIT times already, of a flow of posted packets: the flow fails (R264): its
packets are dropped and it is closed. -/
def nackFailRow : Prop := ∀ (l : Nat) (p : Pkt) (s : State), internalOk s l p 0xF1 →
  let k := namedFlow s.gen s.m l p.hdr
  let e := p.hdr.csfFld 239 224
  seqBefore e (nextSeq s.m l k) = true → p.hdr.csfFld 210 208 ≠ 3 →
  ((heldOf (s.m.ni l) k).head?.map (·.pkt.hdr.seq.toNat)) = some e →
  (∀ x ∈ heldOf (s.m.ni l) k, x.posted = true ∧ niSet s.gen s.m l 0x15 ≤ x.tries) → l < 127 →
  Yields (.nackRetry l p) s fun m => heldOf (m.ni l) k = [] ∧
    (∀ f ∈ (m.ni l).tab.src, f.key = k → f.closed = true) ∧ (m.ni l).ep = (s.m.ni l).ep

/-- PARTIAL_DELIVERY (R137) is consumed: only the ejection link's books change. -/
def partialDeliveryRow : Prop := ∀ (l : Nat) (p : Pkt) (s : State), internalOk s l p 0xF4 →
  Yields (.partialDelivery l p) s fun m => changesOnly [.nis] s.m m ∧ (∀ j, j ≠ l → m.ni j = s.m.ni j) ∧
    ∃ rx, m.ni l = { s.m.ni l with rx := rx }

/-! #### Class 0 -/

/-- TWIN_HOLD_EXPIRY (R184) with one packet held for the agent: the missing SEQs are counted as lost, the packet goes
straight to the egress bus, the flow expects the SEQ after it, and the timer stops. -/
def twinHoldExpiryRow : Prop := ∀ (l j w t : Nat) (k : FlowKey) (q : Pkt) (s : State), s.gen.hasNi l = true →
  s.m.nis.has l = true → l < 127 → c0DstOf s.m l k.src k.vn.toNat = some (j, w) → (c0Flow s.m l j).timer = some t →
  (c0Flow s.m l j).held = [q] → isResponse q.hdr.c = false → verdict s.gen s.m l q.hdr = .agent →
  pathOf s.gen s.m l q.hdr = none → touchesLock s.gen s.m l q.hdr = false → q.hdr.k = 0 →
  Yields (.twinHoldExpiry l k) s fun m =>
    t ≤ m.now ∧ m.out = s.m.out ++ [egressOf l q.hdr.channel q false] ∧
    m.reg s.gen (c0Key l 4) = wrapped s.gen s.m (c0Key l 4) (seqDist q.hdr.seq.toNat (c0Flow s.m l j).e) ∧
    c0Flow m l j = { c0Flow s.m l j with e := (q.hdr.seq.toNat + 1) % 65536, held := [], timer := none }

/-- TWIN_MISS (R187, R202): TWIN_WINDOW after it came, the oldest copy that waits for its twin on this thread is given up and the
thread's miss count rises; at TWIN_MISS_LIMIT or beyond, THREAD_DOWN shows, once until the count is cleared. -/
def twinMissRow : Prop := ∀ (l j w : Nat) (k : FlowKey) (b : Bool) (a : Nat × Bool × Nat) (s : State), s.gen.hasNi l = true →
  s.m.nis.has l = true → c0DstOf s.m l k.src k.vn.toNat = some (j, w) →
  ((c0Flow s.m l j).awaited.find? fun a => a.2.1 != b) = some a →
  Yields (.twinMiss l k b) s fun m =>
    let x := c0Flow s.m l j
    let lim := s.m.reg s.gen (key 0x3100 0x0B)
    a.2.2 ≤ m.now ∧
    c0Flow m l j = { x with awaited := x.awaited.erase a, missA := if b then x.missA else x.missA + 1,
                            missB := if b then x.missB + 1 else x.missB,
                            downA := x.downA || (!b && decide (lim ≤ x.missA + 1)),
                            downB := x.downB || (b && decide (lim ≤ x.missB + 1)) } ∧
    (if lim ≤ (if b then x.missB else x.missA) + 1 ∧ (if b then x.downB else x.downA) = false then
      changesOnly [.nis, .time, .regs, .hw, .logs] s.m m ∧ bit (m.reg s.gen (key 0x3100 6)) 3 = true
    else changesOnly [.nis, .time] s.m m)

end Sys2Proof.Machine

open Sys2Proof.Machine in
/-- RD, RD_IO, RD_CFG, WR_NP, WR_P, WR_NP_PART, WR_P_PART, WR_INLINE_P, WR_CFG, COH_N, MSG, MSG_INLINE and MSG_INTR in order:
delivered to the agent's ejection FIFO (R57, R76, R255). -/
def Obligations.RequestsToAgent : Prop :=
  rdRow ∧ rdIoRow ∧ rdCfgRow ∧ wrNpRow ∧ wrPRow ∧ wrNpPartRow ∧ wrPPartRow ∧ wrInlinePRow ∧ wrCfgRow ∧ cohNRow ∧ msgRow ∧
  msgInlineRow ∧ msgIntrRow

open Sys2Proof.Machine in
/-- A duplicate, a gap and a poisoned header at the destination, for every request (R76, R77). -/
def Obligations.SequenceRules : Prop := duplicateRow ∧ gapRow ∧ badRow

open Sys2Proof.Machine in
/-- The eleven atomics join their path, in an entry of their own or in the one that locks their block (R330, R334). -/
def Obligations.AtomicsToPath : Prop :=
  atAddRow ∧ atSwapRow ∧ atCasRow ∧ atSminRow ∧ atSmaxRow ∧ atUminRow ∧ atUmaxRow ∧ atAndRow ∧ atOrRow ∧ atXorRow ∧ atFaddRow ∧
  atomicJoinRow

open Sys2Proof.Machine in
/-- What the atomic path computes, operand by operand and block by block (R332, R333). -/
def Obligations.AtomicValues : Prop := atomicValueRow ∧ atomicBlockRow

open Sys2Proof.Machine in
/-- RD_SCRATCH and WR_SCRATCH (R300, R305). -/
def Obligations.ScratchAccess : Prop := rdScratchRow ∧ wrScratchRow

open Sys2Proof.Machine in
/-- ENG_INVOKE, ENG_EVENT, COLL_CONTRIB and COLL_RESULT (R315, R317 to R320, R337, R340). -/
def Obligations.EngineCommands : Prop :=
  engInvokeRow ∧ engInvokeOffRow ∧ engEventRow ∧ engEventStartRow ∧ collContribRow ∧ collResultRow

open Sys2Proof.Machine in
/-- RSP, RSP_DATA, RSP_DATA_INLINE and RSP_MGMT of an agent's request (R253, R255, R262). -/
def Obligations.Completions : Prop := rspRow ∧ rspDataRow ∧ rspDataInlineRow ∧ rspMgmtRow

open Sys2Proof.Machine in
/-- POSTED_ACK, NACK_RETRY and PARTIAL_DELIVERY (R78, R137, R262, R264). -/
def Obligations.Acknowledgement : Prop := postedAckRow ∧ nackRetryRow ∧ nackFailRow ∧ partialDeliveryRow

open Sys2Proof.Machine in
/-- TWIN_HOLD_EXPIRY and TWIN_MISS (R184, R187). -/
def Obligations.TwinTimers : Prop := twinHoldExpiryRow ∧ twinMissRow

namespace Sys2Proof.Machine

open Sys2Proof

/-! ### Timers of an NI -/

/-- As `atNi`, once time has gone on to `d`. -/
def atNiTill (l d : Nat) (a b : Mach) : Prop :=
  changesOnly [.regs, .nis, .time] a b ∧ (∀ j, j ≠ l → b.ni j = a.ni j) ∧ b.time = (a.advanceTo d).time

/-- NP_TIMEOUT_FIRST (R253): at the end of the interval, no completion having reached the NI in this fc, the agent is told TIMEOUT
under its own tag; the tag stays, its second interval runs, and cause 0x07 is logged. -/
def npTimeoutFirstRow : Prop := ∀ (l tag : Nat) (s : State) (e : TagEnt), s.gen.hasNi l = true → s.m.nis.has l = true →
  (s.m.ni l).tab.tags.get? tag = some e → e.org = .agent → e.part = 0 → e.fired = false → e.orphan = false →
  tagHeld s.m l tag = false → completionHere s.m l tag = false → e.hdr.k ≠ 0 → (s.m.ni l).ep.st = .opened →
  Yields (.npTimeoutFirst l tag) s fun m =>
    let v := s.m.advanceTo e.deadline
    let r := rspPkt { e.hdr with src := s.m.fid s.gen l } (s.m.fid s.gen l) 5
    let e' : TagEnt := { e with fired := true, deadline := v.now + npTimeout s.gen s.m l }
    changesOnly [.regs, .hw, .logs, .nis, .time] s.m m ∧ m.time = v.time ∧
    m.nis = (s.m.updN l fun n =>
      { n with
        ep := n.ep.pushed 2 ⟨{ r with hdr := { r.hdr with tag := e.agentTag } }, false, some ⟨e.req, e.issue, false, e.sampled⟩, false⟩
        tab := { n.tab with tags := n.tab.tags.put tag e' } }).nis ∧
    (s.m.sh.isolated = false → (m.log (logN l)).counts = (s.m.log (logN l)).counts.set 1 ((s.m.log (logN l)).counts.getD 1 0 + 1) ∧
      ((s.m.log (logN l)).waiting = none → (m.log (logN l)).waiting = some (logRecord 0x07 0 e.hdr.dest tag v.ns)))

/-- NP_TIMEOUT_SECOND (R253, R262): at the end of the second interval the tag and the retransmit copy are freed. -/
def npTimeoutSecondRow : Prop := ∀ (l tag : Nat) (s : State) (e : TagEnt), s.gen.hasNi l = true →
  (s.m.ni l).tab.tags.get? tag = some e → e.fired = true →
  Yields (.npTimeoutSecond l tag) s fun m =>
    let mine (p : Pkt) : Bool := p.hdr.flow == e.hdr.flow && p.hdr.seq == e.hdr.seq
    m = (s.m.advanceTo e.deadline).updN l fun n =>
      { n with
        tab := { n.tab with tags := n.tab.tags.del tag, retx := n.tab.retx.filter fun x => !mine x.pkt }
        tx := { n.tx with retxQ := n.tx.retxQ.filter fun x => !mine x } }

/-- RETX_TIMEOUT (R263): at its deadline the oldest posted packet held of the flow was not acknowledged, and may be sent again: the
flow's held packets from it on are queued, in order. -/
def retxTimeoutRow : Prop := ∀ (l : Nat) (k : FlowKey) (s : State) (x : Retx), s.gen.hasNi l = true → s.m.nis.has l = true →
  ((heldOf (s.m.ni l) k).find? fun x => x.posted) = some x → x.pkt ∉ (s.m.ni l).tx.retxQ →
  (∀ y ∈ heldOf (s.m.ni l) k, y.pkt.hdr.seq = x.pkt.hdr.seq → y.tries < niSet s.gen s.m l 0x15) →
  Yields (.retxTimeout l k) s fun m => atNiTill l x.deadline s.m m ∧ m.regs = s.m.regs ∧
    let again := ((heldOf (s.m.ni l) k).map (·.pkt)).filter fun q => !seqBefore q.hdr.seq.toNat x.pkt.hdr.seq.toNat
    (m.ni l).tx = { (s.m.ni l).tx with retxQ := (s.m.ni l).tx.retxQ.filter (fun q => !again.contains q) ++ again } ∧
    (m.ni l).tab.retx.map (·.pkt) = (s.m.ni l).tab.retx.map (·.pkt) ∧ (m.ni l).ep = (s.m.ni l).ep

/-- NACK_REPEAT_TIME (R77): at the end of the interval the NACK leaves again with CAUSE 3, and its next repeat is timed. -/
def nackRepeatRow : Prop := ∀ (l d : Nat) (k : FlowKey) (s : State) (f : DstFlow), s.gen.hasNi l = true →
  s.m.nis.has l = true → dstOf s.m l k = some f → f.nack = some d → l < 127 →
  Yields (.nackRepeatTime l k) s fun m => atNiTill l d s.m m ∧ (m.ni l).ep = (s.m.ni l).ep ∧
    (m.ni l).tx = { (s.m.ni l).tx with internal := (s.m.ni l).tx.internal ++ [nackPkt (s.m.fid s.gen l) k f.e 3] } ∧
    dstOf m l k = some { f with nack := some (m.now + nackRepeatLen s.gen s.m l) }

/-- ACK_DELAY (R79, R260): at the end of the interval, with no NACK outstanding and nothing of the flow waiting for the agent, the
oldest run is acknowledged: one that a non-posted packet ended, else the one that is open. -/
def ackDelayRow : Prop := ∀ (l : Nat) (k : FlowKey) (s : State) (f : DstFlow), s.gen.hasNi l = true →
  s.m.nis.has l = true → dstOf s.m l k = some f → f.nack = none → flowWaits s.m l k = false → f.run ≤ 16 → f.e < 65536 →
  (f.ended = [] → f.run ≠ 0) →
  Yields (.ackDelay l k) s fun m => atNiTill l ((f.ended.head?.map (·.2.2)).getD f.runDeadline) s.m m ∧ (m.ni l).ep = (s.m.ni l).ep ∧
    (m.ni l).tx = { (s.m.ni l).tx with internal := (s.m.ni l).tx.internal ++ [match f.ended with
      | (first, n, _) :: _ => ackPkt (s.m.fid s.gen l) k first n
      | [] => ackPkt (s.m.fid s.gen l) k ((f.e + 65536 - f.run) % 65536) f.run] } ∧
    dstOf m l k = some (match f.ended with
      | _ :: rest => { f with ended := rest }
      | [] => { f with run := 0 })

/-- FLOW_IDLE_TIME at a destination (R80): once it has passed since the flow's last packet, its state of the flow is discarded; that
of every other flow stays. -/
def flowIdleDstRow : Prop := ∀ (l : Nat) (k : FlowKey) (s : State) (f : DstFlow), s.gen.hasNi l = true →
  dstOf s.m l k = some f →
  Yields (.flowIdleTime l false k) s fun m => m = (s.m.advanceTo (f.lastRx + flowIdle s.gen s.m l)).updN l fun n =>
    { n with tab := { n.tab with dst := n.tab.dst.filter fun x => x.key != k } }

/-- FLOW_IDLE_TIME at a source (R80, R261, R265): once it has passed since the flow last injected, an entry that holds no packet is
freed, and a closed one reopens with SEQ 0; the entries of flows that have injected since stay. -/
def flowIdleSrcRow : Prop := ∀ (l : Nat) (k : FlowKey) (s : State) (f : SrcFlow), s.gen.hasNi l = true → s.m.nis.has l = true →
  ((s.m.ni l).tab.src.find? fun f => f.key == k) = some f → ((s.m.ni l).tab.src.map (·.key)).Nodup →
  (flowHolds s.gen s.m l k = false ∨ f.closed = true) →
  Yields (.flowIdleTime l true k) s fun m =>
    changesOnly [.nis, .time] s.m m ∧ m.time = (s.m.advanceTo (f.lastInj + flowIdle s.gen s.m l)).time ∧
    (∀ j, j ≠ l → m.ni j = s.m.ni j) ∧ flowClosed m l k = false ∧ nextSeq m l k = 0 ∧
    (flowHolds s.gen s.m l k = false → ∀ x ∈ (m.ni l).tab.src, x.key ≠ k) ∧
    (∀ x ∈ (s.m.ni l).tab.src, m.now < x.lastInj + flowIdle s.gen s.m l → x ∈ (m.ni l).tab.src) ∧
    (m.ni l).tab.retx = (s.m.ni l).tab.retx ∧ (m.ni l).tab.tags = (s.m.ni l).tab.tags ∧ (m.ni l).tx = (s.m.ni l).tx

/-- M_EJECT_TIMEOUT (R73, R89): at the end of the interval that began with its wait, the VN M head is discarded and counted; where
the next head lacks credit too, its own interval begins. -/
def mEjectTimeoutRow : Prop := ∀ (l d : Nat) (s : State) (x : EjPkt) (rest : List EjPkt), s.gen.hasNi l = true →
  s.m.nis.has l = true → l ≠ 0 → (s.m.ni l).ep.eject.getD 4 [] = x :: rest → x.drop = false →
  s.m.deadline (.mEject l) = some d →
  Yields (.mEjectTimeout l) s fun m => changesOnly [.regs, .nis, .time, .timers] s.m m ∧ (∀ j, j ≠ l → m.ni j = s.m.ni j) ∧
    m.time = (s.m.advanceTo d).time ∧ (m.ni l).ep = { (s.m.ni l).ep with eject := (s.m.ni l).ep.eject.put 4 rest } ∧
    m.reg s.gen (niKey l 0x17) = wrapped s.gen s.m (niKey l 0x17) 1 ∧ sameRegsBut [niKey l 0x17] s.m m ∧
    m.deadline (.mEject l) = (match rest with
      | y :: _ => if y.pkt.flits ≤ (s.m.ni l).ep.egCr.getD 4 0 then none else some (m.now + usUnits (niSet s.gen s.m l 0x11))
      | [] => none)

/-! ### The endpoint port -/

/-- INGRESS_PACKET (R238, R240, R242): the flits on the bus read as a packet of classes 1 to 3 that passes every check; it takes its
credits and joins the ingress buffer of its channel. -/
def ingressPacketRow : Prop := ∀ (l : Nat) (bus : List BusFlit) (q : Ingress) (s : State), s.gen.hasNi l = true → l ≠ 0 →
  Ingress.ofBus bus = some q → (s.m.ni l).ep.st = .opened → q.otherParity = false → q.dataParity = false →
  isResponse q.hdr.c = false → q.hdr.k ≠ 0 → 1 + q.data.length ≤ (s.m.ni l).ep.inCr.getD q.ch 0 →
  step1 s.gen (s.m.updEp l fun e => { e with inCr := e.inCr.put q.ch (e.inCr.getD q.ch 0 - (1 + q.data.length)) }) l q = .pass →
  Yields (.ingressPacket l bus) s fun m => m = s.m.updEp l fun e =>
    { e with inCr := e.inCr.put q.ch (e.inCr.getD q.ch 0 - (1 + q.data.length))
             ingress := e.ingress.put q.ch (e.ingress.getD q.ch [] ++ [⟨q.hdr, q.data, false, []⟩]) }

/-- R238, R245: a parity error of a control signal or of the header takes the port to AGENT_DOWN, to stay there until the ready line
falls and rises. -/
def ingressParityRow : Prop := ∀ (l : Nat) (bus : List BusFlit) (q : Ingress) (s : State), s.gen.hasNi l = true →
  s.m.nis.has l = true → l ≠ 0 → Ingress.ofBus bus = some q → (s.m.ni l).ep.st = .opened →
  q.otherParity = true →
  Yields (.ingressPacket l bus) s fun m => (m.ni l).ep.st = .agentDown ∧ (m.ni l).ep.needFall = true ∧ (m.ni l).ep.eject = [] ∧
    (m.ni l).tab.pending = []

/-- R238: a bus flit whose control parity does not hold makes the whole presentation fail. -/
def busParityRow : Prop := ∀ (bus : List BusFlit) (q : Ingress) (f : BusFlit), Ingress.ofBus bus = some q → f ∈ bus →
  ctlParity f ≠ f.cpar → q.otherParity = true

/-- EGRESS_CREDIT (R243): the credits are held, up to 32 of a channel. -/
def egressCreditRow : Prop := ∀ (l ch n : Nat) (s : State), s.gen.hasNi l = true → ch < 6 → (s.m.ni l).ep.st = .opened →
  (s.m.ni l).ep.egCr.getD ch 0 + n ≤ 32 →
  Yields (.egressCredit l ch n) s fun m => changesOnly [.nis, .timers] s.m m ∧
    m.nis = (s.m.updEp l fun e => { e with egCr := e.egCr.put ch (e.egCr.getD ch 0 + n) }).nis ∧
    ∀ t, t ≠ .mEject l → m.deadline t = s.m.deadline t

/-- EGRESS_PACKET_START (R241, R243, R256, R257): in the first fc in which the bus is free, the first VN of the order whose head is
ready presents it: it leaves its FIFO, pays its credits and takes the bus, and a non-posted one waits for its answer. -/
def egressPacketStartRow : Prop := ∀ (l v : Nat) (s : State) (x : EjPkt) (rest : List EjPkt), s.gen.hasNi l = true →
  s.m.nis.has l = true → (s.m.ni l).ep.st = .opened → s.m.awake (s.gen.niDom l) = true → (s.m.ni l).ep.mem = [] →
  (∀ y ys, (s.m.ni l).ep.eject.getD 0 [] = y :: ys → pathOf s.gen s.m l y.pkt.hdr = none) →
  ((egressOrder (s.m.ni l).ep.lastVn).find? fun v => egressReady s.gen (s.m.advanceTo (s.m.ni l).ep.busy) l v) = some v →
  (s.m.ni l).ep.eject.getD v [] = x :: rest → x.drop = false →
  Yields (.egressPacketStart l) s fun m =>
    changesOnly [.regs, .nis, .out, .time, .timers] s.m m ∧ m.time = (s.m.advanceTo (s.m.ni l).ep.busy).time ∧
    m.out = s.m.out ++ [egressOf l x.pkt.hdr.channel x.pkt false] ∧
    (m.ni l).ep = { (s.m.ni l).ep with
      eject := (s.m.ni l).ep.eject.put v rest
      egCr := (s.m.ni l).ep.egCr.put v ((s.m.ni l).ep.egCr.getD v 0 - egressCost x)
      busy := m.now + fcUnits x.pkt.flits
      lastVn := if v = 2 then (s.m.ni l).ep.lastVn else v } ∧
    (m.ni l).tab.pending = (s.m.ni l).tab.pending ++ (if x.pkt.hdr.np then [x.pkt.hdr] else [])

/-- What the port shows once it opens (R242): every channel that withholds nothing has a credit for each free place. -/
def portOpen (l : Nat) (a b : Mach) : Prop :=
  (b.ni l).ep.st = .opened ∧
  ∀ ch, ch < 8 → (b.ni l).ep.inCr.getD ch 0 = ingressCap ch - ingressOcc (a.ni l).ep ch

/-- The NI runs, nothing withholds its ingress credits, and no quarantine or pending fall keeps its port from opening. -/
abbrev mayOpen (s : State) (l : Nat) : Prop :=
  s.gen.hasNi l = true ∧ s.m.nis.has l = true ∧ (s.m.ni l).fs = .running ∧ (s.m.ni l).ep.quarantined = false ∧
  (s.m.ni l).ep.needFall = false ∧ s.m.sh.isolated = false ∧
  ((s.m.ni l).tx.c0rsp.any fun x => 16 ≤ x.2.length) = false

/-- AGENT_RDY_RISE (R242, R268): from AGENT_DOWN the port passes through OPENING to OPEN. -/
def agentRdyRiseRow : Prop := ∀ (l : Nat) (s : State), mayOpen s l → (s.m.ni l).ep.st = .agentDown → (s.m.ni l).ep.rdy = false →
  (s.m.ni l).ep.waiting = false →
  Yields (.agentRdyRise l) s fun m => (m.ni l).ep.rdy = true ∧ portOpen l s.m m

/-- NI_OPEN_WAIT_END (R269): FLOW_IDLE_TIME after the reset, with a ready agent, the port opens. -/
def niOpenWaitEndRow : Prop := ∀ (l d : Nat) (s : State), mayOpen s l → (s.m.ni l).ep.st = .opening → (s.m.ni l).ep.rdy = true →
  (s.m.ni l).ep.waiting = true → s.m.deadline (.niOpen l) = some d →
  Yields (.niOpenWaitEnd l) s fun m => (m.ni l).ep.waiting = false ∧ portOpen l s.m m ∧ m.time = (s.m.advanceTo d).time ∧
    m.deadline (.niOpen l) = none

/-- AGENT_RDY_FALL (R268): the port is AGENT_DOWN, holds no credit and nothing for the agent, and every request of the agent
is orphaned. -/
def agentRdyFallRow : Prop := ∀ (l : Nat) (s : State), s.gen.hasNi l = true → s.m.nis.has l = true → (s.m.ni l).ep.rdy = true →
  (s.m.ni l).ep.st = .opened →
  Yields (.agentRdyFall l) s fun m => (m.ni l).ep.st = .agentDown ∧ (m.ni l).ep.rdy = false ∧ (m.ni l).ep.inCr = [] ∧
    (m.ni l).ep.egCr = [] ∧ (m.ni l).ep.eject = [] ∧ (m.ni l).tab.pending = [] ∧
    ∀ e ∈ (m.ni l).tab.tags, e.2.org = .agent → e.2.orphan = true

/-! ### Injection -/

/-- The machine as the injection stage makes its choice: at the first fc in which its link is free (R211), idle source entries gone
(R261, R265), buckets refilled (R218). -/
def atStage (s : State) (l : Nat) : Mach := stageReady s.gen s.m l

/-- The injection stage of NI l may act and starts its candidate `x` of class c (R203, R205, R209). -/
abbrev stageStarts (s : State) (l c : Nat) (a : Arb) (x : Cand) : Prop :=
  s.gen.hasNi l = true ∧ s.m.nis.has l = true ∧ s.m.awake (s.gen.niDom l) = true ∧ (s.m.ni l).rx.resetting = false ∧
  (s.m.ni l).ep.waiting = false ∧ injChoice s.gen (atStage s l) l = (.start c, a) ∧ stageCand s.gen (atStage s l) l c = some x ∧
  stageRoom s.gen (atStage s l) l x = true

/-- What leaves for packet `p` (R43, R46, R74, R88): the NI's own SRC, the flow's next SEQ, the time of now and a good
E2E_CRC; destination, command and data as they were. -/
def injectedAs (s : State) (l : Nat) (p q : Pkt) : Prop :=
  q.crcGood = true ∧ q.hdr.src = s.m.fid s.gen l ∧ q.hdr.dest = p.hdr.dest ∧ q.hdr.cmd = p.hdr.cmd ∧ q.hdr.vn = p.hdr.vn ∧
  q.hdr.cls = p.hdr.cls ∧ q.hdr.injTime = BitVec.ofNat 32 (atStage s l).ns ∧ q.data = p.data ∧
  q.hdr.seq = BitVec.ofNat 16 (if isInternal p.hdr.c then 0
    else nextSeq (atStage s l) l { p.hdr.flow with src := s.m.fid s.gen l })

/-- The header of a step 7 that neither R22 nor R264 stops. -/
abbrev reachable (s : State) (l : Nat) (h : Hdr) : Prop :=
  unreachableHere s.gen (atStage s l) l h = false ∧
  flowClosed (atStage s l) l { h.flow with src := s.m.fid s.gen l } = false

/-- R211: the link is taken for as long as the packet's flits need. -/
def linkTaken (s : State) (l : Nat) (q : Pkt) (m : Mach) : Prop :=
  m.time = (atStage s l).time ∧ (q.hdr.k ≠ 0 → (m.ni l).tx.busy = m.now + fcUnits q.flits)

/-- INJECTION_ADMIT (R246, R247) of a packet the NI makes itself: it leaves numbered and sealed. -/
def injectionAdmitRow : Prop := ∀ (l c : Nat) (a : Arb) (p : Pkt) (s : State), stageStarts s l c a ⟨.internal, [p], .agent⟩ →
  reachable s l p.hdr → p.hdr.np = false →
  Yields (.injectionAdmit l none false) s fun m => ∃ q, m.out = s.m.out ++ [.inject l q] ∧ injectedAs s l p q ∧
    linkTaken s l q m ∧ (m.ni l).tx.internal = (s.m.ni l).tx.internal.erase p ∧
    (p.hdr.kept = true → q ∈ (m.ni l).tab.retx.map (·.pkt)) ∧
    (m.wire (.rtr (s.gen.niRouter l) (s.gen.niPort l))).length =
      (s.m.wire (.rtr (s.gen.niRouter l) (s.gen.niPort l))).length + q.flits

/-- INJECTION_ADMIT with an uncorrectable error in the NI's own state (R237, R269, R447): the NI is reset and its port
waits FLOW_IDLE_TIME. -/
def injectionResetRow : Prop := ∀ (l : Nat) (s : State), s.gen.hasNi l = true → s.m.nis.has l = true →
  Yields (.injectionAdmit l none true) s fun m => (m.ni l).tab = NiTab.reset ∧ (m.ni l).ep.st = .opening ∧
    (m.ni l).ep.waiting = true ∧ m.deadline (.niOpen l) = some (s.m.now + flowIdle s.gen s.m l) ∧ (m.ni l).tx.held = [] ∧ (m.ni l).fs = (s.m.ni l).fs ∧ (m.ni l).guard = (s.m.ni l).guard

/-- HELD_STORE_RELEASE (R248, R286): the held posted packet the virtual port scheduler serves leaves the store and is
injected. -/
def heldStoreReleaseRow : Prop := ∀ (l c : Nat) (a : Arb) (p : Pkt) (hd : Held) (m' : Mach) (s : State),
  stageStarts s l c a ⟨.held, [p], .agent⟩ → heldPick s.gen (atStage s l) l c = some (hd, m') → hd.org = .agent →
  hd.parts = [p] → hd.req = p.hdr → p.hdr.np = false → reachable s l p.hdr →
  Yields (.heldStoreRelease l) s fun m => ∃ q, m.out = s.m.out ++ [.inject l q] ∧ injectedAs s l p q ∧
    linkTaken s l q m ∧ (m.ni l).tx.held = (s.m.ni l).tx.held.erase hd

/-- C0_START (R171, R174, R175): at a start slot of the reservation the copy queued for its thread is injected; credits of channel 7
may follow (R176), and with no response waiting its queue is empty. -/
def c0StartRow : Prop := ∀ (l rsv j w : Nat) (p : Pkt) (s : State), s.gen.hasNi l = true → s.m.nis.has l = true →
  ((c0Descs s.m 0x3400 l).find? fun x => rsv != 0 && (rsvA x.2 == rsv || rsvB x.2 == rsv)) = some (j, w) →
  c0IsStart s.gen s.m l rsv = true →
  (s.m.ni l).tx.c0q.get? (2 * j + if rsvA w = rsv then 0 else 1) = some p →
  c0Suppressed s.m (if rsvA w = rsv then fld w 63 48 else fld w 47 32) = false →
  Yields (.c0Start l rsv) s fun m =>
    (∃ cr, m.out = s.m.out ++ .inject l (c0Copy s.gen s.m l rsv p) :: cr ∧ ∀ o ∈ cr, ∃ n, o = .credit l 7 n) ∧ m.time = s.m.time ∧
    ((s.m.ni l).tx.c0rsp.getD j [] = [] → (s.m.ni l).ep.ingress.getD 7 [] = [] →
      (m.ni l).tx.c0q = (s.m.ni l).tx.c0q.del (2 * j + if rsvA w = rsv then 0 else 1))

/-- C0_START of a copy that would meet an armed activation (R195): nothing is injected, and the suppression is counted. -/
def c0SuppressedRow : Prop := ∀ (l rsv j w : Nat) (p : Pkt) (s : State), s.gen.hasNi l = true → l < 127 →
  ((c0Descs s.m 0x3400 l).find? fun x => rsv != 0 && (rsvA x.2 == rsv || rsvB x.2 == rsv)) = some (j, w) →
  c0IsStart s.gen s.m l rsv = true →
  (s.m.ni l).tx.c0q.get? (2 * j + if rsvA w = rsv then 0 else 1) = some p →
  c0Suppressed s.m (if rsvA w = rsv then fld w 63 48 else fld w 47 32) = true →
  Yields (.c0Start l rsv) s fun m => changesOnly [.regs, .hw] s.m m ∧
    m.reg s.gen (c0Key l 5) = wrapped s.gen s.m (c0Key l 5) 1 ∧ bit (m.reg s.gen (key 0x3100 6)) 1 = true

/-! ### Guards -/

/-- GUARD_SWAP (R360): one swap is accepted by the named guard, or by every guard. -/
def guardSwapRow : Prop := ∀ (v : Nat) (s : State), (v = 0x7F ∨ s.gen.isInit v = true) → s.m.nis.has v = true ∨ v = 0x7F →
  ((s.gen.nis.map (·.loc)).Nodup) →
  Yields (.guardSwap v) s fun m => changesOnly [.nis, .out] s.m m ∧ m.out = s.m.out ++ [.status 0] ∧
    ∀ l, s.m.nis.has l = true → m.ni l = if (v = 0x7F ∧ s.gen.isInit l = true ∧ l ∈ s.gen.nis.map (·.loc)) ∨ (v ≠ 0x7F ∧ l = v) then
      { s.m.ni l with guard := { (s.m.ni l).guard with swaps := (s.m.ni l).guard.swaps + 1 } } else s.m.ni l

/-- GUARD_SWAP_EFFECT (R361, R362): the shadow set is active; of each index whose entry there is VALID and LOCK, both sets
hold that entry and the index is locked; every other entry of both sets is as before. -/
def guardSwapEffectRow : Prop := ∀ (l : Nat) (s : State), s.gen.isInit l = true → s.m.nis.has l = true →
  (s.m.ni l).guard.swaps ≠ 0 →
  Yields (.guardSwapEffect l) s fun m => changesOnly [.nis] s.m m ∧ (∀ j, j ≠ l → m.ni j = s.m.ni j) ∧
    let x := (s.m.ni l).guard
    let y := (m.ni l).guard
    y.activeB = !x.activeB ∧ y.swaps + 1 = x.swaps ∧
    ∀ j, j < 32 →
      let w := x.shadow.getD j 0
      if bit w 127 = true ∧ bit w 126 = true then y.setA.getD j 0 = w ∧ y.setB.getD j 0 = w ∧ y.locked.testBit j = true
      else y.setA.getD j 0 = x.setA.getD j 0 ∧ y.setB.getD j 0 = x.setB.getD j 0 ∧ y.locked.testBit j = x.locked.testBit j

/-- LIFECYCLE_CHANGE (R359): every guard sees whether hy_lifecycle reads OPEN (0xA). -/
def lifecycleChangeRow : Prop := ∀ (v : BitVec 4) (s : State),
  Yields (.lifecycleChange v) s fun m => changesOnly [.sh, .nis] s.m m ∧ m.sh = { s.m.sh with lifecycle := v } ∧
    ∀ l, s.m.nis.has l = true → m.ni l = { s.m.ni l with guard := { (s.m.ni l).guard with open_ := v == 0xA } }

/-- DENY_CLEAR (R368): DENY_FIRST and both denial counts read 0. -/
def denyClearRow : Prop := ∀ (l : Nat) (s : State), s.gen.hasNi l = true → s.gen.isInit l = true →
  Yields (.denyClear l) s fun m => changesOnly [.regs, .out] s.m m ∧ m.out = s.m.out ++ [.status 0] ∧
    (∀ k ∈ [guardKey l 3, guardKey l 4, guardKey l 5], m.reg s.gen k = 0) ∧
    sameRegsBut [guardKey l 3, guardKey l 4, guardKey l 5] s.m m

/-- PV_RELEASE (R451): the quarantine ends, and the window of violations begins anew. -/
def pvReleaseRow : Prop := ∀ (l : Nat) (s : State), s.gen.hasNi l = true → s.m.nis.has l = true → l ≠ 0 →
  Yields (.pvRelease l) s fun m => changesOnly [.regs, .nis, .out] s.m m ∧ m.out = s.m.out ++ [.status 0] ∧
    (m.ni l).ep.quarantined = false ∧ (m.ni l).pvTicks = [] ∧ (m.ni l).pvBase = s.m.reg s.gen (niKey l 0x40) ∧
    m.reg s.gen (niKey l 0x42) = 0 ∧ (m.ni l).tab = (s.m.ni l).tab

/-! ### Virtual ports -/

/-- A virtual port of an initiator or combined NI. -/
abbrev hasVp (s : State) (l v : Nat) : Prop :=
  s.gen.hasNi l = true ∧ s.m.nis.has l = true ∧ s.gen.isInit l = true ∧ v < 1024

/-- What VP_OP_RESULT reads. -/
def opResult (busy : Bool) (op code v : Nat) : Nat := busy.toNat * 2 ^ 31 + op * 2 ^ 24 + code * 2 ^ 16 + v

/-- Only virtual port v of NI l and what the row says of the NI changes; every other virtual port is as before. -/
def atVp (l v : Nat) (a b : Mach) : Prop :=
  changesOnly [.regs, .hw, .nis, .timers, .out] a b ∧ (∀ j, j ≠ l → b.ni j = a.ni j) ∧ ∀ u, u ≠ v → b.vp l u = a.vp l u

/-- What object k reads after a write of `w`: what hardware updated of it in the same ao cycle comes after the write (R14). -/
def written (m : Mach) (k w : Nat) : Nat := mergeBits w (m.hwNow k).1 (m.hwNow k).2

/-- VP_ENABLE (R283): DISABLED to RUNNING. -/
def vpEnableRow : Prop := ∀ (l v : Nat) (s : State), hasVp s l v → (s.m.vp l v).st = .disabled →
  let w := s.m.reg s.gen (vpKey 0x4800 l v)
  bit w 31 = false → fld w 30 29 ≠ 3 → fld w 28 16 ≤ 4096 → fld w 15 8 ≠ 0 →
  Yields (.vpEnable l v) s fun m => atVp l v s.m m ∧ m.vp l v = { s.m.vp l v with st := .running } ∧
    m.reg s.gen (vpKey 0x4800 l v) = written s.m (vpKey 0x4800 l v) (w + 2 ^ 31) ∧ m.out = s.m.out ++ [.status 0]

/-- VP_DISABLE (R283): FROZEN to DISABLED. -/
def vpDisableRow : Prop := ∀ (l v : Nat) (s : State), hasVp s l v → (s.m.vp l v).st = .frozen →
  let w := s.m.reg s.gen (vpKey 0x4800 l v)
  bit w 31 = true → fld w 30 29 ≠ 3 → fld w 28 16 ≤ 4096 → fld w 15 8 ≠ 0 →
  Yields (.vpDisable l v) s fun m => atVp l v s.m m ∧ m.vp l v = { s.m.vp l v with st := .disabled } ∧
    m.reg s.gen (vpKey 0x4800 l v) = written s.m (vpKey 0x4800 l v) (w - 2 ^ 31) ∧ m.out = s.m.out ++ [.status 0]

/-- FREEZE (R283, R288, R289): RUNNING to FREEZING; the command is in progress for at most 2 × NP_TIMEOUT, and VP_OP_RESULT shows it
BUSY. -/
def freezeRow : Prop := ∀ (l v : Nat) (s : State), hasVp s l v → (s.m.ni l).job = none → (s.m.vp l v).st = .running →
  Yields (.freeze l v) s fun m => atVp l v s.m m ∧ m.vp l v = { s.m.vp l v with st := .freezing } ∧
    (m.ni l).job = some ⟨1, v, [], false⟩ ∧
    m.deadline (.vpFreeze l) = some (s.m.now + 2 * npTimeout s.gen s.m l) ∧ m.reg s.gen (niKey l 0x32) = opResult true 1 0 v ∧ m.out = s.m.out ++ [.status 0]

/-- THAW (R283): FREEZING or FROZEN to RUNNING. -/
def thawRow : Prop := ∀ (l v : Nat) (s : State), hasVp s l v → (s.m.ni l).job = none →
  ((s.m.vp l v).st = .freezing ∨ (s.m.vp l v).st = .frozen) →
  Yields (.thaw l v) s fun m => atVp l v s.m m ∧ m.vp l v = { s.m.vp l v with st := .running } ∧ (m.ni l).job = none ∧
    m.reg s.gen (niKey l 0x32) = opResult false 2 0 v ∧ m.out = s.m.out ++ [.status 0]

/-- SAVE (R291): VP_IMAGE holds the image of the FROZEN port: its CRC is good, and its VP_CTRL, VP_SHAPE and number stand in
their places. -/
def saveRow : Prop := ∀ (l v : Nat) (s : State), hasVp s l v → (s.m.ni l).job = none → (s.m.vp l v).st = .frozen →
  s.m.reg s.gen (vpKey 0x4800 l v) < 2 ^ 32 → vpShape s.gen s.m l v < 2 ^ 32 →
  Yields (.save l v) s fun m => atVp l v s.m m ∧ (∀ u, m.vp l u = s.m.vp l u) ∧
    let w := m.reg s.gen (vpImageKey l)
    fld w 2047 2016 = crc32c (toBytes w 252) ∧ fld w 31 8 = 0x000302 ∧ fld w 57 48 = v ∧
    fld w 95 64 = s.m.reg s.gen (vpKey 0x4800 l v) ∧ fld w 127 96 = vpShape s.gen s.m l v ∧
    m.reg s.gen (niKey l 0x32) = opResult false 3 0 v ∧ m.out = s.m.out ++ [.status 0]

/-- RESTORE (R291) of a good image into a DISABLED port: the port is FROZEN with the image's WEIGHT, budget and shape. -/
def restoreRow : Prop := ∀ (l v : Nat) (s : State), hasVp s l v → l ≠ 0 → l < 127 → (s.m.ni l).job = none →
  (s.m.vp l v).st = .disabled →
  let w := s.m.reg s.gen (vpImageKey l)
  crc32c (toBytes w 252) = fld w 2047 2016 → fld w 31 8 = 0x000302 →
  Yields (.restore l v) s fun m => atVp l v s.m m ∧ (m.vp l v).st = .frozen ∧ (m.vp l v).deficit = fld w 223 192 ∧
    m.reg s.gen (vpKey 0x4C00 l v) % 2 ^ 32 = fld w 127 96 ∧ fld (m.reg s.gen (vpKey 0x4800 l v)) 30 8 = fld w 94 72 ∧
    bit (m.reg s.gen (vpKey 0x4800 l v)) 31 = true ∧ m.reg s.gen (niKey l 0x32) = opResult false 4 0 v ∧
    m.out = s.m.out ++ [.status 0]

/-- RESTORE of an image whose CRC fails changes nothing but VP_OP_RESULT, which reads IMAGE_CRC (R291). -/
def restoreBadRow : Prop := ∀ (l v : Nat) (s : State), hasVp s l v → (s.m.ni l).job = none → (s.m.vp l v).st = .disabled →
  crc32c (toBytes (s.m.reg s.gen (vpImageKey l)) 252) ≠ fld (s.m.reg s.gen (vpImageKey l)) 2047 2016 →
  Yields (.restore l v) s fun m => m = (s.m.setReg (niKey l 0x32) (opResult false 4 3 v)).emit (.status 0)

/-- RESET (R292, R293): the port is RESETTING, the command is in progress until the second control tick from now at most, and the NI's held store and mirror queue hold
nothing of the port any more. -/
def resetRow : Prop := ∀ (l v : Nat) (s : State), hasVp s l v → l < 127 → (s.m.ni l).job = none →
  ((s.m.vp l v).st = .running ∨ (s.m.vp l v).st = .freezing ∨ (s.m.vp l v).st = .frozen) →
  Yields (.reset l v) s fun m => (m.vp l v).st = .resetting ∧ ((m.ni l).job.map fun j => (j.op, j.v)) = some (5, v) ∧
    m.deadline (.squash l) = some (s.m.now + s.m.ticksOn 2) ∧ (m.ni l).tx.held = (s.m.ni l).tx.held.filter (fun x => !(x.org == .agent && x.req.vport.toNat == v)) ∧
    vpMirrored (m.ni l) v = false ∧ m.reg s.gen (niKey l 0x32) = opResult true 5 0 v

/-- R288: a command for a virtual port in the wrong state changes nothing but VP_OP_RESULT. -/
def wrongStateRow : Prop := ∀ (l v : Nat) (s : State), hasVp s l v → (s.m.ni l).job = none →
  let after (op : Nat) (m : Mach) : Prop := m = (s.m.setReg (niKey l 0x32) (opResult false op 1 v)).emit (.status 0)
  ((s.m.vp l v).st ≠ .running → Yields (.freeze l v) s (after 1)) ∧
  ((s.m.vp l v).st ≠ .freezing → (s.m.vp l v).st ≠ .frozen → Yields (.thaw l v) s (after 2)) ∧
  ((s.m.vp l v).st ≠ .frozen → Yields (.save l v) s (after 3)) ∧
  ((s.m.vp l v).st ≠ .disabled → Yields (.restore l v) s (after 4)) ∧
  ((s.m.vp l v).st = .disabled ∨ (s.m.vp l v).st = .resetting → Yields (.reset l v) s (after 5))

/-- VP_FROZEN (R289): a FREEZING port that is drained is FROZEN, and its FREEZE ends with DONE. -/
def vpFrozenRow : Prop := ∀ (l v : Nat) (x : Vp) (s : State), hasVp s l v → (s.m.ni l).vps.get? v = some x → x.st = .freezing →
  vpDrained (s.m.ni l) v = true → (s.m.ni l).job = some ⟨1, v, [], false⟩ →
  Yields (.vpFrozen l) s fun m => changesOnly [.regs, .nis, .timers] s.m m ∧ (m.vp l v).st = .frozen ∧ (m.ni l).job = none ∧
    m.deadline (.vpFreeze l) = none ∧ m.reg s.gen (niKey l 0x32) = opResult false 1 0 v

/-- VP_FREEZE_TIMEOUT (R289): at the end of 2 × NP_TIMEOUT the FREEZE ends with DRAIN_TIMEOUT; the port stays FREEZING. -/
def vpFreezeTimeoutRow : Prop := ∀ (l v d : Nat) (s : State), s.gen.hasNi l = true → (s.m.ni l).job = some ⟨1, v, [], false⟩ →
  vpDrained (s.m.ni l) v = false → s.m.deadline (.vpFreeze l) = some d →
  Yields (.vpFreezeTimeout l) s fun m => changesOnly [.regs, .nis, .time, .timers] s.m m ∧ m.time = (s.m.advanceTo d).time ∧
    m.nis = (s.m.updN l fun n => { n with job := none }).nis ∧ m.reg s.gen (niKey l 0x32) = opResult false 1 2 v ∧
    sameRegsBut [niKey l 0x32] s.m m ∧ m.deadline (.vpFreeze l) = none

/-- SQUASH_ROUND_TIMEOUT (R293): at the second control tick the nodes still awaited count as unreached, and their answers are awaited
no more. -/
def squashRoundTimeoutRow : Prop := ∀ (l d : Nat) (s : State) (j : VpJob), s.gen.hasNi l = true → s.m.nis.has l = true →
  (s.m.ni l).job = some j → j.op = 5 → j.nodes ≠ [] → s.m.deadline (.squash l) = some d →
  Yields (.squashRoundTimeout l) s fun m => changesOnly [.sh, .nis, .time, .timers] s.m m ∧ m.time = (s.m.advanceTo d).time ∧
    m.ni l = { s.m.ni l with job := some { j with nodes := [], unreached := true } } ∧
    (∀ id n, (id, Call.squash l n) ∉ m.sh.calls) ∧ ∀ id c, (∀ n, c ≠ Call.squash l n) → (id, c) ∈ s.m.sh.calls → (id, c) ∈ m.sh.calls

/-- VP_RESET_DONE (R294): the port is DISABLED with a full bucket and no deficit, ENABLE reads 0, and the RESET ends with
DONE, or SQUASH_PARTIAL where a node was unreached. -/
def vpResetDoneRow : Prop := ∀ (l : Nat) (s : State) (j : VpJob), hasVp s l j.v → l ≠ 0 → l < 127 → (s.m.ni l).job = some j →
  j.op = 5 → j.nodes = [] → vpTags (s.m.ni l) j.v = 0 → vpRetx (s.m.ni l) j.v = 0 → vpMirrored (s.m.ni l) j.v = false →
  Yields (.vpResetDone l) s fun m => atVp l j.v s.m m ∧ (m.vp l j.v).st = .disabled ∧ (m.vp l j.v).deficit = 0 ∧
    (m.vp l j.v).bucket = Bucket.full (vpShape s.gen s.m l j.v) s.m.ft ∧ (m.ni l).job = none ∧
    bit (m.reg s.gen (vpKey 0x4800 l j.v)) 31 = false ∧
    m.reg s.gen (niKey l 0x32) = opResult false 5 (if j.unreached then 5 else 0) j.v

/-! ### Multicast groups -/

/-- GROUP_ENABLE (R131, R521): a group whose tree is good is enabled, and the entries last written for it are in force. -/
def groupEnableRow : Prop := ∀ (n : Nat) (s : State), n < 1024 → treeOk s.gen s.m n = true →
  Yields (.groupEnable n) s fun m => changesOnly [.regs, .hw, .inForce, .sh, .timers, .out] s.m m ∧ m.reg s.gen (groupKey n) = 1 ∧
    sameRegsBut [groupKey n] s.m m ∧ (∀ r, r < 256 → m.cfg s.gen (key (0x2400 + n) r) = entryOf s.gen s.m n r) ∧
    m.out = s.m.out ++ [.status 0]

/-- R131: a group whose tree is not good is refused TREE_INVALID, and nothing changes. -/
def groupRefusedRow : Prop := ∀ (n : Nat) (s : State), n < 1024 → treeOk s.gen s.m n = false →
  Yields (.groupEnable n) s fun m => m = s.m.emit (.status 8)

/-- GROUP_DISABLE (R130): the group is disabled and waits for DRAINED, to the control tick at or after 32 × RESIDUE_TIMEOUT (log 164). -/
def groupDisableRow : Prop := ∀ (n : Nat) (s : State), n < 1024 → s.m.groupEnabled s.gen n = true →
  Yields (.groupDisable n) s fun m => changesOnly [.regs, .hw, .sh, .timers, .out] s.m m ∧ m.reg s.gen (groupKey n) = 0 ∧
    sameRegsBut [groupKey n] s.m m ∧ m.sh = { s.m.sh with draining := s.m.sh.draining ++ [n] } ∧
    m.deadline (.group n) = some (s.m.now + s.m.toTick (32 * nsUnits (s.m.reg s.gen (key 0x2000 2)))) ∧ m.out = s.m.out ++ [.status 0]

/-- GROUP_DRAINED (R130): at its control tick DRAINED reads 1. -/
def groupDrainedRow : Prop := ∀ (n d : Nat) (s : State), n < 1024 → s.m.deadline (.group n) = some d →
  Yields (.groupDrained n) s fun m => changesOnly [.regs, .hw, .sh, .time, .timers] s.m m ∧ m.time = (s.m.advanceTo d).time ∧
    bit (m.reg s.gen (groupKey n)) 1 = true ∧ bit (m.reg s.gen (groupKey n)) 0 = bit (s.m.reg s.gen (groupKey n)) 0 ∧
    sameRegsBut [groupKey n] s.m m ∧ m.sh = { s.m.sh with draining := s.m.sh.draining.erase n } ∧ m.deadline (.group n) = none

end Sys2Proof.Machine

open Sys2Proof.Machine in
/-- NP_TIMEOUT_FIRST, NP_TIMEOUT_SECOND, RETX_TIMEOUT and M_EJECT_TIMEOUT (R73, R253, R262, R263). -/
def Obligations.NiTimeouts : Prop := npTimeoutFirstRow ∧ npTimeoutSecondRow ∧ retxTimeoutRow ∧ mEjectTimeoutRow

open Sys2Proof.Machine in
/-- NACK_REPEAT_TIME, ACK_DELAY and FLOW_IDLE_TIME (R77, R79, R80, R260, R261, R265). -/
def Obligations.FlowTimers : Prop := nackRepeatRow ∧ ackDelayRow ∧ flowIdleDstRow ∧ flowIdleSrcRow

open Sys2Proof.Machine in
/-- INGRESS_PACKET, EGRESS_CREDIT and EGRESS_PACKET_START (R240 to R245, R256, R257). -/
def Obligations.EndpointBus : Prop := ingressPacketRow ∧ ingressParityRow ∧ busParityRow ∧ egressCreditRow ∧ egressPacketStartRow

open Sys2Proof.Machine in
/-- AGENT_RDY_RISE, AGENT_RDY_FALL and NI_OPEN_WAIT_END (R242, R268, R269). -/
def Obligations.AgentReady : Prop := agentRdyRiseRow ∧ agentRdyFallRow ∧ niOpenWaitEndRow

open Sys2Proof.Machine in
/-- INJECTION_ADMIT, HELD_STORE_RELEASE and C0_START (R74, R88, R171, R175, R195, R246 to R248, R447). -/
def Obligations.Injection : Prop := injectionAdmitRow ∧ injectionResetRow ∧ heldStoreReleaseRow ∧ c0StartRow ∧ c0SuppressedRow

open Sys2Proof.Machine in
/-- GUARD_SWAP, GUARD_SWAP_EFFECT, LIFECYCLE_CHANGE, DENY_CLEAR and PV_RELEASE (R359 to R362, R368, R451). -/
def Obligations.Guards : Prop := guardSwapRow ∧ guardSwapEffectRow ∧ lifecycleChangeRow ∧ denyClearRow ∧ pvReleaseRow

open Sys2Proof.Machine in
/-- VP_ENABLE, VP_DISABLE, FREEZE, THAW, SAVE, RESTORE and RESET (R283, R288, R291 to R293). -/
def Obligations.VirtualPortCommands : Prop :=
  vpEnableRow ∧ vpDisableRow ∧ freezeRow ∧ thawRow ∧ saveRow ∧ restoreRow ∧ restoreBadRow ∧ resetRow ∧ wrongStateRow

open Sys2Proof.Machine in
/-- VP_FROZEN, VP_FREEZE_TIMEOUT, SQUASH_ROUND_TIMEOUT and VP_RESET_DONE (R289, R293, R294). -/
def Obligations.VirtualPortEnds : Prop := vpFrozenRow ∧ vpFreezeTimeoutRow ∧ squashRoundTimeoutRow ∧ vpResetDoneRow

open Sys2Proof.Machine in
/-- GROUP_ENABLE, GROUP_DISABLE and GROUP_DRAINED (R130, R131, R521). -/
def Obligations.Groups : Prop := groupEnableRow ∧ groupRefusedRow ∧ groupDisableRow ∧ groupDrainedRow

namespace Sys2Proof.Machine

open Sys2Proof

/-! ### Routers and on-die links -/

/-- Router r with its port p is there. -/
abbrev hasPortOf (s : State) (r p : Nat) : Prop :=
  s.gen.hasRouterPort r p = true ∧ s.m.routers.has r = true ∧ (s.m.rt s.gen r).ins.has p = true ∧ (s.m.rt s.gen r).outs.has p = true

/-- A word without error comes over an open link into a domain in P0 that is not in reset. -/
abbrev cleanWord (s : State) (e : LinkEnd) (w : WireFlit) (f : Flit) : Prop :=
  unpackFlit w = (f, 0, 0) ∧ endClosed s.gen s.m e = false ∧ (s.m.dom (endDomain s.gen e)).st = .p0 ∧
  (s.m.dom (endDomain s.gen e)).inReset = false

/-- LINK_FLIT_RECEIVE (R37, R103, R438) of a unicast header at a torus or L input: the packet joins its VC's buffer, bound
for the output its LA_PORT names, with the LA_PORT of the next router; the next LSEQ is expected. -/
def flitHeaderRow : Prop := ∀ (r p : Nat) (w : WireFlit) (f : Flit) (t : Nat × Nat) (s : State), hasPortOf s r p → p ≠ 6 →
  cleanWord s (.rtr r p) w f → f.fvalid = true → f.crvalid = false → f.lseq = (s.m.inp s.gen r p).lseq → f.fidx = 0 →
  (f.ftype = 1 ∨ f.ftype = 3) → f.vc < 12 → holdsUnrouted s.gen s.m r = false →
  let h := Hdr.ofBits f.payload
  h.mcast = false → resolve s.gen s.m r h = some t → illegalRoute s.gen r p h.laPort.toNat = false →
  Yields (.linkFlitReceive (.rtr r p) w none) s fun m => changesOnly [.regs, .routers, .wires] s.m m ∧
    (m.inp s.gen r p).lseq = ((s.m.inp s.gen r p).lseq + 1) % 256 ∧
    (m.inp s.gen r p).vcs.getD f.vc [] = (s.m.inp s.gen r p).vcs.getD f.vc [] ++
      [{ pkt := ⟨{ h with laPort := nextLa s.gen r h.laPort.toNat t h, dateline := if p ≤ 3 then h.dateline else false }, [], f.poison, []⟩,
         need := h.flits, got := 1, todo := [h.laPort.toNat], live := [], freed := 0, asked := false }]

/-- LINK_FLIT_RECEIVE of a packet of one flit at an NI: it has arrived whole. -/
def flitAtNiRow : Prop := ∀ (l : Nat) (w : WireFlit) (f : Flit) (s : State), s.gen.hasNi l = true → s.m.nis.has l = true →
  cleanWord s (.ni l) w f → f.fvalid = true → f.crvalid = false → f.lseq = (s.m.ni l).rx.lseq → f.fidx = 0 → f.ftype = 3 →
  (Hdr.ofBits f.payload).flits = 1 →
  Yields (.linkFlitReceive (.ni l) w none) s fun m => changesOnly [.nis, .wires] s.m m ∧
    (m.ni l).rx.lseq = ((s.m.ni l).rx.lseq + 1) % 256 ∧
    (m.ni l).rx.arrived = (s.m.ni l).rx.arrived ++ [⟨Hdr.ofBits f.payload, [], f.poison, []⟩] ∧
    (m.ni l).ep = (s.m.ni l).ep ∧ (m.ni l).tab = (s.m.ni l).tab

/-- LINK_FLIT_RECEIVE of an idle cycle that returns a credit (R36); over an ASYNC bridge the value crosses by double sampling
(R407, R408). -/
def flitCreditRow : Prop := ∀ (r p : Nat) (w : WireFlit) (f : Flit) (s : State), hasPortOf s r p → cleanWord s (.rtr r p) w f →
  f.fvalid = false → f.crvalid = true → f.crvc < 12 →
  Yields (.linkFlitReceive (.rtr r p) w none) s fun m => changesOnly [.regs, .hw, .fresh, .routers, .wires] s.m m ∧
    (asyncEnd s.gen (.rtr r p) = false → changesOnly [.routers, .wires] s.m m) ∧ m.inp s.gen r p = s.m.inp s.gen r p ∧
    (m.outp s.gen r p).cr.getD f.crvc 0 = (s.m.outp s.gen r p).cr.getD f.crvc 0 + 1

/-- LINK_FLIT_RECEIVE with an error that cannot be corrected in the group of the frame and credit fields (R439, R440): the
link is reset, for 16 fc. -/
def flitResetRow : Prop := ∀ (r p c bad : Nat) (w : WireFlit) (f : Flit) (s : State), hasPortOf s r p →
  unpackFlit w = (f, c, bad) → endClosed s.gen s.m (.rtr r p) = false → (s.m.dom (s.gen.region r)).st = .p0 →
  (s.m.dom (s.gen.region r)).inReset = false → bit bad 2 = true →
  Yields (.linkFlitReceive (.rtr r p) w none) s fun m => (m.inp s.gen r p).resetting = true ∧
    m.deadline (.linkReset (linkKey (.rtr r p))) = some (s.m.now + fcUnits 16)

/-- LINK_RESET_REOPEN (R440): 16 fc after the reset the link is open, LSEQ is 0, and each VC has the credits of 5 flits less those of the packets
kept for it. -/
def linkReopenRow : Prop := ∀ (r p d : Nat) (s : State), hasPortOf s r p → (s.m.inp s.gen r p).resetting = true →
  (s.m.outp s.gen r p).dead = false → s.m.deadline (.linkReset (linkKey (.rtr r p))) = some d →
  Yields (.linkResetReopen (.rtr r p)) s fun m => changesOnly [.routers, .time, .timers] s.m m ∧ m.time = (s.m.advanceTo d).time ∧
    m.inp s.gen r p = { s.m.inp s.gen r p with resetting := false, lseq := 0 } ∧ (m.outp s.gen r p).lseq = 0 ∧
    (m.outp s.gen r p).q = (s.m.outp s.gen r p).q ∧
    ∀ v, v < 12 → (m.outp s.gen r p).cr.getD v 0 =
      5 - (((s.m.outp s.gen r p).q.filter fun t => t.vc == v).map (·.need)).sum

/-- The machine as the allocator sees it: the residue timers of multicast heads run (R134). -/
def withResidue (s : State) (r : Nat) : Mach := startResidues s.gen s.m r

/-- ROUTER_ALLOCATION (R108 to R110) with a single request, for one output: it is granted, its copy stands in the output
queue, and both pointers move past it. -/
def allocationRow : Prop := ∀ (r o : Nat) (q : Req) (b : BufPkt) (s : State), hasPortOf s r o →
  forwards s.m s.gen r = true → (s.m.rt s.gen r).cyclic = false → (s.m.rt s.gen r).want = none → (s.m.rt s.gen r).conns = [] →
  answerDead s.gen (abandonDead s.gen s.m r) r = s.m → requests s.gen (withResidue s r) (withResidue s r) r = [q] → q.outs = [o] →
  requester (((withResidue s r).inp s.gen r q.inp).vcs.getD q.vc []) = some b → b.pkt.hdr.mcast = false →
  b.pkt.badHdr = false → b.pkt.badData = [] →
  Yields (.routerAllocation r false) s fun m =>
    (∃ t ∈ (m.outp s.gen r o).q, t.inp = q.inp ∧ t.inVc = q.vc ∧ t.need = q.need ∧ t.pkt.hdr = copyHdr s.gen r q.inp o q.hdr) ∧
    (m.rt s.gen r).gptr.getD o 0 = (q.inp * 14 + q.vc + 1) % 112 ∧ (m.rt s.gen r).aptr.getD q.inp 0 = (o + 1) % 7

/-- ROUTER_ALLOCATION with a parity error in the allocator (R115): cyclic mode is asked for with CAUSE 2, and nothing is
granted. -/
def allocationParityRow : Prop := ∀ (r : Nat) (s : State), s.gen.hasRouter r = true → s.m.routers.has r = true →
  (s.m.rt s.gen r).cyclic = false →
  Yields (.routerAllocation r true) s fun m => (m.rt s.gen r).want = some true ∧ (m.rt s.gen r).cause = 2 ∧
    (m.rt s.gen r).cyclic = false ∧
    ∀ c ∈ (m.rt s.gen r).conns, ∃ x ∈ (s.m.rt s.gen r).conns, x.inp = c.inp ∧ x.vc = c.vc ∧ x.out = c.out ∧ x.plane = c.plane

/-- The credit that goes back with this cycle (R36). -/
def creditOf (s : State) (r p : Nat) : Option Nat := (s.m.inp s.gen r p).credits.find? fun v => mayReturn s.gen s.m r p v

/-- The output with the FIFOs that hold its candidates kept (R207). -/
def fixedOut (s : State) (r p : Nat) : Mach := s.m.updOut r p OutPort.fix

/-- Output p of router r has a clock and an open on-die link. -/
abbrev mayStart (s : State) (r p : Nat) : Prop :=
  hasPortOf s r p ∧ p ≠ 6 ∧ s.m.awake (s.gen.region r) = true ∧ (s.m.inp s.gen r p).resetting = false ∧ (s.m.outp s.gen r p).dead = false

/-- LINK_PACKET_SELECT (R203, R205, R207): with no packet on the link and no class-0 flit waiting behind one, the packet the round
robin chooses starts: its header flit goes out under the next LSEQ, with a credit for the other direction where one waits. -/
def selectStartRow : Prop := ∀ (r p c : Nat) (a : Arb) (t : TxPkt) (s : State), mayStart s r p →
  ((s.m.outp s.gen r p).q.find? fun t => 0 < t.sent) = none → (s.m.outp s.gen r p).c0 = [] →
  outChoice (fixedOut s r p) s.gen r p = (.start c, a) → outCandidate ((fixedOut s r p).outp s.gen r p) c = some t →
  bridgeRoom s.gen s.m (farEnd s.gen r p) t.need = true →
  Yields (.linkPacketSelect r p) s fun m => changesOnly [.regs, .routers, .wires] s.m m ∧
    m.wire (farEnd s.gen r p) = s.m.wire (farEnd s.gen r p) ++
      [(t.pkt.flit t.need 0 t.vc (s.m.outp s.gen r p).lseq (creditOf s r p)).pack] ∧
    (m.outp s.gen r p).lseq = ((s.m.outp s.gen r p).lseq + 1) % 256

/-- LINK_PACKET_SELECT with a packet on the link (R41): its next flit follows and nothing stands between; behind its tail go the
class-0 flits that waited for it (log 158). -/
def selectNextRow : Prop := ∀ (r p : Nat) (t : TxPkt) (s : State), mayStart s r p →
  ((s.m.outp s.gen r p).q.find? fun t => 0 < t.sent) = some t → t.sent < t.got →
  Yields (.linkPacketSelect r p) s fun m => changesOnly [.regs, .routers, .wires] s.m m ∧
    ∃ late, m.wire (farEnd s.gen r p) = s.m.wire (farEnd s.gen r p) ++
      (t.pkt.flit t.need t.sent t.vc (s.m.outp s.gen r p).lseq (creditOf s r p)).pack :: late ∧
      late.length = if t.sent + 1 = t.need then (s.m.outp s.gen r p).c0.length else 0

/-- LINK_PACKET_SELECT before the next flit of the packet on the link is there (R41): nothing goes. -/
def selectWaitRow : Prop := ∀ (r p : Nat) (t : TxPkt) (s : State), mayStart s r p →
  ((s.m.outp s.gen r p).q.find? fun t => 0 < t.sent) = some t → t.got ≤ t.sent → Yields (.linkPacketSelect r p) s fun m => m = s.m

/-- RESIDUE_TIMEOUT (R135, R137): when its timer has run out, of a multicast packet that is the only one in its VC, received whole and with no copy on
its way: it leaves, and a PARTIAL_DELIVERY to its source waits at the router. -/
def residueTimeoutRow : Prop := ∀ (r p vc d : Nat) (b : BufPkt) (t : Nat × Nat) (s : State), hasPortOf s r p → vc < 12 →
  p ≠ ownInput → (s.m.inp s.gen r p).vcs.getD vc [] = [b] → (s.m.inp s.gen r p).vcs.has vc = true → b.todo ≠ [] → b.live = [] →
  b.got = b.need → b.pkt.hdr.mcast = true → b.asked = true → s.m.deadline (.residue r p vc) = some d →
  resolve s.gen s.m r { Hdr.zero with dest := b.pkt.hdr.src, src := s.m.fid s.gen 0, vn := 2, cls := 1, cmd := 0xF4 } = some t →
  Yields (.residueTimeout r p vc) s fun m => (m.inp s.gen r p).vcs.getD vc [] = [] ∧ m.time = (s.m.advanceTo d).time ∧
    ∃ x ∈ (m.inp s.gen r ownInput).vcs.getD 4 [], x.pkt.hdr.cmd = 0xF4 ∧ x.pkt.hdr.dest = b.pkt.hdr.src ∧ x.pkt.crcGood = true

/-- ROUTE_STATE_ARRIVAL (R96), DT_ALPHA_ARRIVAL (R118) and CLASS_WEIGHT_ARRIVAL (R214): the router takes the settings as they
are now; weights wait for the round boundary. -/
def routeStateArrivalRow : Prop := ∀ (r : Nat) (s : State), s.gen.hasRouter r = true →
  Yields (.routeStateArrival r) s fun m => m = s.m.updR r fun x =>
    { x with alive := s.m.reg s.gen (key 0x2000 4), avoid := s.m.reg s.gen (key 0x2000 5) }

def dtAlphaArrivalRow : Prop := ∀ (r : Nat) (s : State), s.gen.hasRouter r = true →
  Yields (.dtAlphaArrival r) s fun m => m = s.m.updR r fun x => { x with alpha := s.m.reg s.gen (key 0x2000 1) }

def classWeightArrivalRow : Prop := ∀ (e : LinkEnd) (s : State), endPresent s.gen e = true →
  Yields (.classWeightArrival e) s fun m =>
    let w := some [s.m.reg s.gen (key 0x3200 1), s.m.reg s.gen (key 0x3200 2), s.m.reg s.gen (key 0x3200 3)]
    m = match e with
      | .rtr r p => s.m.updOut r p fun o => { o with wNew := w }
      | .ni l => s.m.updTx l fun t => { t with wNew := w }

/-- CYCLIC_MODE_CHANGE (R114) with no connection open: the mode changes, the frame count begins anew, and packets in
intermediate slots stand at the end of their output queues. -/
def cyclicModeChangeRow : Prop := ∀ (r : Nat) (b : Bool) (s : State), s.gen.hasRouter r = true → s.m.routers.has r = true →
  (s.m.rt s.gen r).want = some b → (s.m.rt s.gen r).conns = [] →
  Yields (.cyclicModeChange r) s fun m => changesOnly [.routers] s.m m ∧ (m.rt s.gen r).cyclic = b ∧
    (m.rt s.gen r).want = none ∧ (m.rt s.gen r).mids = [] ∧ (m.rt s.gen r).frame = 0 ∧
    (m.rt s.gen r).cause = (if b then (s.m.rt s.gen r).cause else 0) ∧
    ∀ o, (s.m.rt s.gen r).outs.has o = true → (m.outp s.gen r o).q = (s.m.outp s.gen r o).q ++
      ((s.m.rt s.gen r).mids.filter fun x => x.2.2 == o).map fun x => x.2.1

/-! ### Ndesil ports -/

/-- Port p and its channel c are there. -/
abbrev hasChan (s : State) (p c : Nat) : Prop :=
  s.gen.hasPort p = true ∧ p < 8 ∧ c < 6 ∧ s.m.ports.has p = true ∧ (s.m.port p).chans.has c = true

abbrev portThere (s : State) (p : Nat) : Prop := s.gen.hasPort p = true ∧ p < 8 ∧ s.m.ports.has p = true

/-- What frame c of a superframe is: eight flits, its channel, a good CRC16 (R372, R376). -/
def wellBuilt (s : State) (p : Nat) (f : Frame) : Prop :=
  f.flits.length = 8 ∧ f.crc = f.crc16 (s.gen.phy p == 2) ∧ f.chan.toNat = f.on

/-- The frames leave: on a short-reach port as one superframe with SF_HDR, over its lanes; on a long-reach port as one eighth-stream
per bundle (R373, R393, R395). -/
def framesLeave (s : State) (p : Nat) (fs : List Frame) (m : Mach) : Prop :=
  let hdr := BitVec.ofNat 64 ((s.m.port p).sfNum * 2 ^ 48 + (s.m.port p).mapEpoch * 2 ^ 44)
  m.out = s.m.out ++ if s.gen.phy p = 2 then fs.map fun f => Out.bundle p f.on f f.beats
    else [Out.superframe p hdr fs (laneWords hdr fs (laneShape s.gen s.m p fs.length).1 (laneShape s.gen s.m p fs.length).2)]

/-- SUPERFRAME_SEND (R372, R374, R376) of a link that is UP and ACTIVE, no reply mark being due: one frame of eight flits per trained
channel, in channel order, each with its own CRC16; the superframe number goes on. -/
def superframeSendRow : Prop := ∀ (p : Nat) (s : State), portThere s p → (s.m.port p).link = .up → (s.m.port p).pwr = 0 →
  (∀ c, (s.m.chan p c).tsMark % 4 ≠ 2) →
  Yields (.superframeSend p) s fun m => ∃ fs : List Frame, framesLeave s p fs m ∧
    fs.map (·.on) = s.m.trainedChans p ∧ (∀ f ∈ fs, wellBuilt s p f) ∧
    (m.port p).sfNum = ((s.m.port p).sfNum + 1) % 65536 ∧ changesOnly [.ports, .time, .timers, .out] s.m m

/-- SUPERFRAME_SEND of a link that is not UP and whose lanes carry no training pattern (R372): the same without a flit, on every
channel. -/
def superframeIdleRow : Prop := ∀ (p : Nat) (s : State), portThere s p → s.gen.phy p = 0 → (s.m.port p).link ≠ .up →
  (s.m.port p).link ≠ .laneTrain →
  Yields (.superframeSend p) s fun m => ∃ fs : List Frame, framesLeave s p fs m ∧ fs.map (·.on) = [0, 1, 2, 3, 4, 5] ∧
    (∀ f ∈ fs, wellBuilt s p f ∧ f.tsMark = 0 ∧ ∀ w ∈ f.flits, wfValid w = false) ∧
    (m.port p).sfNum = ((s.m.port p).sfNum + 1) % 65536 ∧ changesOnly [.regs, .ports, .out] s.m m

/-- The frame comes in on a trained channel of a link that is UP and ACTIVE, carries no class-0 flit and no mark. -/
abbrev frameComes (s : State) (p : Nat) (f : Frame) : Prop :=
  hasChan s p f.on ∧ (s.m.port p).link = .up ∧ (s.m.port p).pwr = 0 ∧ bit (s.m.port p).trained f.on = true ∧
  c0Flits f = [] ∧ f.tsMark = 0 ∧ f.nak = false ∧ f.ackValid = false ∧ (s.m.chan p f.on).discarding = false

/-- FRAME_RECEIVE (R380, R382) of a good frame with the LSEQ expected: its flits join the receive buffer, it will be
acknowledged, and its credits are taken. -/
def frameGoodRow : Prop := ∀ (p : Nat) (f : Frame) (s : State), frameComes s p f → f.crc = f.crc16 (s.gen.phy p == 2) → f.rxErr = false →
  frameBroken (s.m.chan p f.on) f = false → (∀ x, (lowFlits f).head? = some x → wfLseq x.2 = (s.m.chan p f.on).e) →
  (s.m.chan p f.on).swallow = [] →
  Yields (.frameReceive p (.channel f)) s fun m => changesOnly [.ports, .timers] s.m m ∧
    (m.chan p f.on).rxbuf = (s.m.chan p f.on).rxbuf ++ (lowFlits f).map (fun x => (f.poolMap.getLsbD x.1, x.2)) ∧
    (m.chan p f.on).e = ((s.m.chan p f.on).e + (lowFlits f).length) % 256 ∧ (m.chan p f.on).ackDue = true ∧
    (m.chan p f.on).pool = (s.m.chan p f.on).pool + f.poolCredits.toNat

/-- FRAME_RECEIVE of a frame whose CRC16 fails (R382, R385), below the limit of a retrain: it is counted and discarded, and a
NAK will leave. -/
def frameBadRow : Prop := ∀ (p : Nat) (f : Frame) (s : State), frameComes s p f → f.crc ≠ f.crc16 (s.gen.phy p == 2) →
  (s.m.chan p f.on).opened = [] → (s.m.port p).crcFails + 1 ≤ s.m.reg s.gen (portKey p 0x0F) →
  Yields (.frameReceive p (.channel f)) s fun m => changesOnly [.regs, .ports, .timers] s.m m ∧
    m.deadline (.nak p f.on) = some (s.m.now + fcUnits 64) ∧
    m.reg s.gen (portKey p 9) = wrapped s.gen s.m (portKey p 9) 1 ∧ sameRegsBut [portKey p 9] s.m m ∧
    (m.chan p f.on).discarding = true ∧ (m.chan p f.on).nakDue = true ∧ (m.chan p f.on).e = (s.m.chan p f.on).e ∧
    (m.chan p f.on).rxbuf = (s.m.chan p f.on).rxbuf

/-- NAK_REPEAT (R382): 64 fc after the last one a discarding receiver sends its NAK again. -/
def nakRepeatRow : Prop := ∀ (p c d : Nat) (s : State), hasChan s p c → (s.m.chan p c).discarding = true →
  s.m.deadline (.nak p c) = some d →
  Yields (.nakRepeat p c) s fun m => changesOnly [.ports, .time, .timers] s.m m ∧ m.time = (s.m.advanceTo d).time ∧
    m.ports = (s.m.updC p c fun x => { x with nakDue := true }).ports ∧ m.deadline (.nak p c) = some (m.now + fcUnits 64)

/-- RELEASE_STAGE (R378): the oldest packet that has room and fits before class 0 begins to leave, header first, into the Z
router, at most its own flits; while the rest of it has been discarded, completed with fillers (R384). -/
def releaseStageRow : Prop := ∀ (p c v : Nat) (w : WireFlit) (s : State), hasChan s p c → (s.m.chan p c).opened = [] →
  ((vcHeads (s.m.chan p c)).find? fun h =>
    zRoom s.gen s.m p c h.1 (wfHdr h.2).flits && gapOk s.m (s.m.chan p c) (wfHdr h.2).flits) = some (v, w) →
  Yields (.releaseStage p c) s fun m => ∃ rest, rest.length < (wfHdr w).flits ∧
    m.wire (.rtr (s.gen.zRouter p c) 6) = s.m.wire (.rtr (s.gen.zRouter p c) 6) ++ w :: rest ∧
    ((s.m.chan p c).discarding = true → rest.length + 1 = (wfHdr w).flits) ∧ changesOnly [.regs, .ports, .wires] s.m m

/-- C0_RELEASE (R166): the flit enters the Z router in its release slot; one whose slot has passed does not. -/
def c0ReleaseRow : Prop := ∀ (p c t : Nat) (w : WireFlit) (rest : List (Nat × WireFlit)) (s : State), hasChan s p c →
  (s.m.chan p c).c0q = (t, w) :: rest →
  Yields (.c0Release p c) s fun m => (m.chan p c).c0q = rest ∧
    (s.m.time.sc ≤ t → m.wire (.rtr (s.gen.zRouter p c) 6) = s.m.wire (.rtr (s.gen.zRouter p c) 6) ++ [w] ∧
      m.time = (s.m.pass (t - s.m.time.sc)).time) ∧
    (t < s.m.time.sc → m.wires = s.m.wires ∧ m.time = s.m.time)

/-- The message of type t with this payload has left port p: on its sideband, or on a long-reach port in its sideband stream (R397). -/
def tells (g : Gen) (m : Mach) (p t : Nat) (pl : List Byte) : Prop :=
  if g.phy p = 2 then ∃ a b, (m.port p).sbOut = a ++ sbMessage t pl ++ b else Out.sideband p (sbMessage t pl) ∈ m.out

/-- Exactly this message leaves. -/
def tellsOnly (g : Gen) (a b : Mach) (p t : Nat) (pl : List Byte) : Prop :=
  b.out = a.out ++ sbLeaves g t (fun _ => pl) [p] ∧ tells g b p t pl

/-- DETECT_TIMEOUT (R386): 1 ms after the call TRAIN_CAUSE reads NO_PEER and the far end is called again. -/
def detectTimeoutRow : Prop := ∀ (p d : Nat) (s : State), portThere s p → (s.m.port p).link = .detect → s.m.deadline (.detect p) = some d →
  Yields (.detectTimeout p) s fun m => changesOnly [.regs, .ports, .time, .timers, .out] s.m m ∧ m.time = (s.m.advanceTo d).time ∧
    m.reg s.gen (portKey p 5) = 1 ∧ sameRegsBut [portKey p 5] s.m m ∧ (m.port p).link = .detect ∧
    tellsOnly s.gen s.m m p 0x02 (trainBytes 0 []) ∧ m.deadline (.detect p) = some (m.now + usUnits 1000)

/-- TRAIN (R386): the far end answers in DETECT, and lane training begins. -/
def trainRow : Prop := ∀ (p step : Nat) (map : List Byte) (s : State), portThere s p → (s.m.port p).link = .detect →
  Yields (.train ⟨p, step, map, sbCrc 0x02 (trainBytes step map)⟩) s fun m => changesOnly [.ports, .timers, .out] s.m m ∧
    (m.port p).link = .laneTrain ∧ tellsOnly s.gen s.m m p 0x02 (trainBytes 1 []) ∧ m.deadline (.detect p) = none ∧
    ∀ q, q ≠ p → m.port q = s.m.port q

/-- A PARAM of this instance (R388): its node, package and rank, and the version. -/
def ownMessage (s : State) (x : ParamMsg) : Prop :=
  x.node = BitVec.ofNat 16 (s.m.node s.gen) ∧ x.package = BitVec.ofNat 8 (s.m.package s.gen) ∧
  x.rank = BitVec.ofNat 8 (s.m.cfg s.gen (key 0x2000 6)) ∧ x.version = 0x000302

/-- LANE_TRAIN_DONE (R387) of a short-reach port: with channels that both directions trained it goes to PARAM, LANE_STATUS
shows the lanes, and the lane map and PARAM leave; with none it is FAILED, TRAIN_CAUSE 2. -/
def laneTrainDoneRow : Prop := ∀ (p : Nat) (x : LaneResult) (s : State), portThere s p → s.gen.phy p = 0 →
  (s.m.port p).link = .laneTrain → (s.m.port p).heard = none →
  let o := laneOutcome 0 (slowPort s.gen s.m p) x.errors
  Yields (.laneTrainDone p x) s fun m => m.reg s.gen (portKey p 6) = o.1 ∧
    (if o.2 &&& x.farChannels % 64 = 0 then (m.port p).link = .failed ∧ m.reg s.gen (portKey p 5) = 2
     else (m.port p).link = .param ∧ (m.port p).found = (o.2 &&& x.farChannels % 64) ∧
       (m.port p).map = laneMap 0 (s.m.port p).serdes x.errors ∧
       ∃ y, ownMessage s y ∧ m.out = s.m.out ++
         [.sideband p (sbMessage 0x02 (trainBytes 2 (mapBytes (laneMap 0 (s.m.port p).serdes x.errors)))), .sideband p (sbMessage 0x01 y.bytes)])

/-- PARAM (R99, R388) that matches, in PARAM: PEER_ID and PORT_DIR are set and the link is UP with the channels found. -/
def paramUpRow : Prop := ∀ (p : Nat) (x : ParamMsg) (s : State), portThere s p → (s.m.port p).link = .param →
  paramFault s.gen s.m p x = none →
  Yields (.param ⟨p, sbCrc 0x01 x.bytes⟩ x) s fun m => (m.port p).link = .up ∧ (m.port p).trained = (s.m.port p).found ∧
    m.reg s.gen (portKey p 7) = x.node.toNat * 65536 + x.package.toNat * 256 + x.rank.toNat ∧
    m.reg s.gen (portKey p 5) = 0 ∧
    m.reg s.gen (key 0x2010 (p + 1)) =
      if x.rank.toNat < s.m.cfg s.gen (key 0x2000 6) ∨
        (x.rank.toNat = s.m.cfg s.gen (key 0x2000 6) ∧ x.node.toNat < s.m.node s.gen) then 1 else 2

/-- PARAM that does not match (R27, R386, R388): MISMATCH, with its cause, and this end's PARAM due in 1 ms. -/
def paramMismatchRow : Prop := ∀ (p c : Nat) (x : ParamMsg) (s : State), portThere s p → (s.m.port p).link = .param →
  paramFault s.gen s.m p x = some c →
  Yields (.param ⟨p, sbCrc 0x01 x.bytes⟩ x) s fun m => (m.port p).link = .mismatch ∧ (m.port p).trained = 0 ∧
    m.reg s.gen (portKey p 5) = c ∧ m.deadline (.mismatch p) = some (s.m.now + usUnits 1000)

/-- PARAM_REPEAT (R386): in MISMATCH this end's PARAM leaves again every 1 ms. -/
def paramRepeatRow : Prop := ∀ (p d : Nat) (s : State), portThere s p → (s.m.port p).link = .mismatch →
  s.m.deadline (.mismatch p) = some d →
  Yields (.paramRepeat p) s fun m => changesOnly [.ports, .time, .timers, .out] s.m m ∧ m.time = (s.m.advanceTo d).time ∧
    (∃ y, ownMessage s y ∧ tellsOnly s.gen s.m m p 0x01 y.bytes) ∧ m.deadline (.mismatch p) = some (m.now + usUnits 1000) ∧
    (m.port p).link = .mismatch

/-- A link that leaves UP for another state has no trained channel, and the retrain is counted. -/
def retrained (s : State) (m : Mach) (p : Nat) : Prop :=
  (m.port p).link = .retrain ∧ (m.port p).trained = 0 ∧ (m.port p).keep = true ∧
  m.reg s.gen (portKey p 0x0C) = wrapped s.gen s.m (portKey p 0x0C) 1

/-- RETRAIN_REQ (R386): an UP link goes to RETRAIN. -/
def retrainReqRow : Prop := ∀ (p cause : Nat) (s : State), portThere s p → (s.m.port p).link = .up →
  Yields (.retrainReq ⟨p, sbCrc 0x03 [BitVec.ofNat 8 cause]⟩ cause) s fun m => retrained s m p

/-- RETRAIN (R525): an UP link goes to RETRAIN and asks the far end to; a FAILED one goes to DETECT. -/
def retrainRow : Prop := ∀ (p : Nat) (s : State), portThere s p → ((s.m.port p).link = .up ∨ (s.m.port p).link = .failed) →
  Yields (.retrain p) s fun m => Out.status 0 ∈ m.out ∧
    ((s.m.port p).link = .up → retrained s m p ∧ tells s.gen m p 0x03 [0]) ∧
    ((s.m.port p).link = .failed → (m.port p).link = .detect)

/-- LINK_DOWN (R524): to DETECT, with the contents of every channel discarded. -/
def linkDownRow : Prop := ∀ (p : Nat) (s : State), portThere s p → (s.m.port p).link ≠ .down →
  Yields (.linkDown ⟨p, sbCrc 0x08 []⟩) s fun m => (m.port p).link = .detect ∧ (m.port p).trained = 0 ∧
    ∀ c, c < 6 → (s.m.port p).chans.has c = true → (m.chan p c).replay = [] ∧ (m.chan p c).rxbuf = [] ∧ (m.chan p c).txq = []

/-- DISABLE (R524, R525): LINK_DOWN is sent, the link is DOWN, its contents are discarded. -/
def disableRow : Prop := ∀ (p : Nat) (s : State), portThere s p → (s.m.port p).link ≠ .down →
  Yields (.disable p) s fun m => (m.port p).link = .down ∧ (m.port p).trained = 0 ∧ tells s.gen m p 0x08 [] ∧
    ∀ c, c < 6 → (s.m.port p).chans.has c = true → (m.chan p c).replay = [] ∧ (m.chan p c).rxbuf = [] ∧ (m.chan p c).txq = []

/-- ENABLE (R525): a DOWN or FAILED link goes to DETECT and calls the far end. -/
def enableRow : Prop := ∀ (p : Nat) (s : State), portThere s p → ((s.m.port p).link = .down ∨ (s.m.port p).link = .failed) →
  Yields (.enable p) s fun m => (m.port p).link = .detect ∧ tells s.gen m p 0x02 (trainBytes 0 [])

/-- SIDEBAND_REPEAT (R397): 100 µs after it left, message k of those that may have been dropped leaves again. -/
def sidebandRepeatRow : Prop := ∀ (p k t : Nat) (b : List Byte) (s : State), portThere s p → (s.m.port p).sideband[k]? = some (t, b) →
  Yields (.sidebandRepeat ⟨p, k⟩) s fun m => changesOnly [.ports, .time, .out] s.m m ∧ m.time = (s.m.advanceTo t).time ∧
    (s.gen.phy p ≠ 2 → m.out = s.m.out ++ [.sideband p b] ∧ (m.port p).sbOut = (s.m.port p).sbOut) ∧
    (s.gen.phy p = 2 → m.out = s.m.out ∧ (m.port p).sbOut = (s.m.port p).sbOut ++ b)

/-- SERDES_UP_CHANGE (R396) of a long-reach port that is UP: the bundle's channel enters or leaves the trained set. -/
def serdesUpChangeRow : Prop := ∀ (p b : Nat) (up : Bool) (s : State), portThere s p → b < 6 → s.gen.phy p = 2 →
  (s.m.port p).link = .up →
  Yields (.serdesUpChange p b up) s fun m => bit (m.port p).trained b = up ∧ bit (m.port p).serdes b = up ∧
    ∀ c, c ≠ b → bit (m.port p).trained c = bit (s.m.port p).trained c

/-- LINK_IDLE_THRESHOLD (R431, R432): once a link that may go lower has been idle for the threshold of a deeper state than it has
asked for, the far end is asked, and the link is in the shallower of the two states asked for unless it is in a deeper one. -/
def linkIdleThresholdRow : Prop := ∀ (p code d : Nat) (s : State), portThere s p → s.m.deadline (.linkIdle p code) = some d →
  mayLower s.gen s.m p code = true → (s.m.port p).ask < code → ((s.m.port p).farAsk = 0 → (s.m.port p).pwr = 0) →
  Yields (.linkIdleThreshold p code) s fun m => m.time = (s.m.advanceTo d).time ∧ (m.port p).ask = code ∧
    tells s.gen m p 0x06 [BitVec.ofNat 8 code] ∧
    ((s.m.port p).exiting = false → (m.port p).pwr = max (s.m.port p).pwr (min code (s.m.port p).farAsk))

/-- PWR_REQ (R432): the link enters the shallower of the two requested states, unless it is in a deeper one. -/
def pwrReqRow : Prop := ∀ (p code : Nat) (s : State), portThere s p → 1 ≤ code → code ≤ 3 → (s.m.port p).link = .up →
  (s.m.port p).ask ≠ 0 → (s.m.port p).exiting = false →
  Yields (.pwrReq ⟨p, sbCrc 0x06 [BitVec.ofNat 8 code]⟩ code) s fun m => (m.port p).farAsk = code ∧
    (m.port p).pwr = max (s.m.port p).pwr (min (s.m.port p).ask code)

/-- LINK_PWR_EXIT_DONE (R431, R433): at the end of the exit latency the link is ACTIVE again, and holds what it held. -/
def linkPwrExitDoneRow : Prop := ∀ (p d : Nat) (s : State), portThere s p → (s.m.port p).exiting = true →
  s.m.deadline (.linkExit p) = some d →
  Yields (.linkPwrExitDone p) s fun m => changesOnly [.ports, .domains, .time, .timers, .out] s.m m ∧ m.time = (s.m.advanceTo d).time ∧
    m.port p = { s.m.port p with pwr := 0, ask := 0, farAsk := 0, exiting := false } ∧ m.deadline (.linkExit p) = none

end Sys2Proof.Machine

open Sys2Proof.Machine in
/-- LINK_FLIT_RECEIVE and LINK_RESET_REOPEN (R36, R37, R103, R438 to R440). -/
def Obligations.OnDieLinks : Prop := flitHeaderRow ∧ flitAtNiRow ∧ flitCreditRow ∧ flitResetRow ∧ linkReopenRow

open Sys2Proof.Machine in
/-- ROUTER_ALLOCATION, CYCLIC_MODE_CHANGE and RESIDUE_TIMEOUT (R108 to R110, R114, R115, R135, R137). -/
def Obligations.Allocation : Prop := allocationRow ∧ allocationParityRow ∧ cyclicModeChangeRow ∧ residueTimeoutRow

open Sys2Proof.Machine in
/-- LINK_PACKET_SELECT, ROUTE_STATE_ARRIVAL, DT_ALPHA_ARRIVAL and CLASS_WEIGHT_ARRIVAL (R41, R96, R118, R203, R205, R214). -/
def Obligations.OutputLinks : Prop :=
  selectStartRow ∧ selectNextRow ∧ selectWaitRow ∧ routeStateArrivalRow ∧ dtAlphaArrivalRow ∧ classWeightArrivalRow

open Sys2Proof.Machine in
/-- SUPERFRAME_SEND, FRAME_RECEIVE, NAK_REPEAT, RELEASE_STAGE and C0_RELEASE (R166, R372, R376, R378, R382). -/
def Obligations.Frames : Prop :=
  superframeSendRow ∧ superframeIdleRow ∧ frameGoodRow ∧ frameBadRow ∧ nakRepeatRow ∧ releaseStageRow ∧ c0ReleaseRow

open Sys2Proof.Machine in
/-- DETECT_TIMEOUT, TRAIN, LANE_TRAIN_DONE, PARAM, PARAM_REPEAT, RETRAIN_REQ and SERDES_UP_CHANGE (R99, R386 to R388, R396). -/
def Obligations.LinkTraining : Prop :=
  detectTimeoutRow ∧ trainRow ∧ laneTrainDoneRow ∧ paramUpRow ∧ paramMismatchRow ∧ paramRepeatRow ∧ retrainReqRow ∧ serdesUpChangeRow

open Sys2Proof.Machine in
/-- RETRAIN, DISABLE, ENABLE, LINK_DOWN and SIDEBAND_REPEAT (R397, R524, R525). -/
def Obligations.LinkCommands : Prop := retrainRow ∧ disableRow ∧ enableRow ∧ linkDownRow ∧ sidebandRepeatRow

open Sys2Proof.Machine in
/-- LINK_IDLE_THRESHOLD, PWR_REQ and LINK_PWR_EXIT_DONE (R431 to R433). -/
def Obligations.LinkPower : Prop := linkIdleThresholdRow ∧ pwrReqRow ∧ linkPwrExitDoneRow

namespace Sys2Proof.Machine

open Sys2Proof

/-! ### Domains -/

/-- Domain d was generated and is there. -/
abbrev domThere (s : State) (d : Nat) : Prop := s.gen.hasDom d = true ∧ s.m.domains.has d = true

/-- Of the domains only d changes, and it becomes `x`. -/
def domBecomes (d : Nat) (x : Domain) (a b : Mach) : Prop := b.dom d = x ∧ ∀ e, e ≠ d → b.dom e = a.dom e

/-- BRIDGE_FAR_RESET (R410, R237, R493): a domain without link layers enters reset; its NIs lose their tables and wait in OPENING,
its units' counters are cleared, and settings, time and pricking are untouched. -/
def bridgeFarResetRow : Prop := ∀ (d : Nat) (s : State), domThere s d → d ≠ 0 → (s.m.dom d).inReset = false → portsIn s.gen d = [] →
  Yields (.bridgeFarReset d) s fun m => (m.dom d).inReset = true ∧ (∀ e, e ≠ d → m.dom e = s.m.dom e) ∧
    m.inForce = s.m.inForce ∧ m.prk = s.m.prk ∧ m.time = s.m.time ∧ m.deadline (.dead d) = some (s.m.now + deadUnits s.gen s.m) ∧
    (∀ k, counterOf s.gen d k = true → m.regs.get? k = none) ∧
    ∀ l, l ∈ nisIn s.gen d → s.m.nis.has l = true →
      (m.ni l).tab = NiTab.reset ∧ (m.ni l).ep.st = .opening ∧ (m.ni l).ep.waiting = true ∧ (m.ni l).fs = (s.m.ni l).fs

/-- BRIDGE_REOPEN (R410, R412): one round trip of its slowest bridge after it has left reset, a domain is in P0 again and no longer
dead; only links change with it. -/
def bridgeReopenRow : Prop := ∀ (d : Nat) (s : State), domThere s d → (s.m.dom d).inReset = true → (s.m.dom d).st ≠ .p3 →
  Yields (.bridgeReopen d) s fun m => changesOnly [.routers, .nis, .domains, .time, .timers] s.m m ∧
    m.time = (s.m.advanceTo (s.m.now + roundTrip s.gen s.m d)).time ∧ m.deadline (.dead d) = none ∧
    domBecomes d { s.m.dom d with inReset := false, dead := false, st := .p0, goal := 0, hinted := false, woke := m.now } s.m m

/-- BRIDGE_DEAD (R411) of a domain that is in P0, CLOSING or WAKING and carries no management crossing: DEAD_TIMEOUT ao cycles after
its clock stopped, as the row begins (log 182) or with its reset, its bridges are dead, and DEAD shows. -/
def bridgeDeadRow : Prop := ∀ (d t : Nat) (s : State), domThere s d → d ≠ 0 → d ≠ s.gen.niDom 0 → (s.m.dom d).dead = false →
  ((s.m.dom d).st = .p0 ∧ (s.m.dom d).inReset = true ∧ s.m.deadline (.dead d) = some t ∨
   ((s.m.dom d).st = .p0 ∧ (s.m.dom d).inReset = false ∨ (s.m.dom d).st = .closing ∨ (s.m.dom d).st = .waking) ∧
     t = s.m.now + deadUnits s.gen s.m) →
  Yields (.bridgeDead d) s fun m => domBecomes d { s.m.dom d with dead := true } s.m m ∧ m.inForce = s.m.inForce ∧ m.prk = s.m.prk ∧
    m.time = (s.m.advanceTo t).time ∧ bit (m.reg s.gen (domKey d 7)) 2 = true

/-- BRIDGE_DEAD of the always-on domain: the instance is isolated, and its ports are disabled (R448). -/
def bridgeIsolateRow : Prop := ∀ s : State, s.gen.hasDom 0 = true → s.m.sh.isolated = false →
  Yields (.bridgeDead 0) s fun m => m.sh.isolated = true ∧ m.now = s.m.now + deadUnits s.gen s.m ∧
    m.ft = (s.m.advanceTo (s.m.now + deadUnits s.gen s.m)).ft ∧
    ∀ q ∈ s.gen.ports, s.m.ports.has q.p = true → (m.port q.p).link = .down

/-- The supply of domain d is asked for a state; its answer is due within PWR_ACK_TIMEOUT (R416). -/
def asks (s : State) (d code : Nat) (m : Mach) : Prop :=
  m.out = s.m.out ++ [.pwrReq d code] ∧ m.deadline (.ack d) = some (s.m.now + usUnits (s.m.reg s.gen (key 0x8000 10)))

/-- PWR_ACK (R416, R417) that a WAKING domain waited for: the request goes to ON. -/
def pwrAckWakeRow : Prop := ∀ (d code : Nat) (s : State), domThere s d → d ≠ 0 → code < 4 → s.gen.domKind d ≠ 3 →
  (s.m.dom d).st = .waking → (s.m.dom d).ack ≠ (s.m.dom d).req → code = (s.m.dom d).req → code ≠ 0 →
  Yields (.pwrAck d code) s fun m => changesOnly [.domains, .timers, .out] s.m m ∧
    domBecomes d { s.m.dom d with ack := code, req := 0 } s.m m ∧ asks s d 0 m

/-- PWR_ACK that a CLOSING domain on its way to P2 waited for (R417, R427). -/
def pwrAckCloseRow : Prop := ∀ (d code : Nat) (s : State), domThere s d → d ≠ 0 → code < 4 → s.gen.domKind d ≠ 3 →
  (s.m.dom d).st = .closing → (s.m.dom d).goal = 2 → (s.m.dom d).hinted = false → (s.m.dom d).ack ≠ (s.m.dom d).req →
  code = (s.m.dom d).req →
  Yields (.pwrAck d code) s fun m => changesOnly [.domains, .timers] s.m m ∧
    domBecomes d { s.m.dom d with ack := code, st := .p2 } s.m m ∧ m.deadline (.ack d) = none

/-- PWR_ACK that a CLOSING domain on its way to P3 waited for (R417, R427): its units lose what they hold. -/
def pwrAckOffRow : Prop := ∀ (d code : Nat) (s : State), domThere s d → d ≠ 0 → code < 4 → s.gen.domKind d ≠ 3 →
  (s.m.dom d).st = .closing → (s.m.dom d).goal = 3 → (s.m.dom d).hinted = false → (s.m.dom d).ack ≠ (s.m.dom d).req →
  code = (s.m.dom d).req → portsIn s.gen d = [] →
  Yields (.pwrAck d code) s fun m => domBecomes d { s.m.dom d with ack := code, st := .p3, inReset := true } s.m m ∧
    m.inForce = s.m.inForce ∧ m.time = s.m.time ∧
    ∀ l, l ∈ nisIn s.gen d → s.m.nis.has l = true → (m.ni l).tab = NiTab.reset ∧ (m.ni l).ep.waiting = true ∧ (m.ni l).fs = (s.m.ni l).fs

/-- PWR_ACK_TIMEOUT (R416): PWR_ACK_TIMEOUT after the request the bridges of the domain are dead. -/
def pwrAckTimeoutRow : Prop := ∀ (d t : Nat) (s : State), domThere s d → d ≠ 0 → d ≠ s.gen.niDom 0 →
  (s.m.dom d).ack ≠ (s.m.dom d).req → (s.m.dom d).dead = false → s.m.deadline (.ack d) = some t →
  Yields (.pwrAckTimeout d) s fun m => domBecomes d { s.m.dom d with dead := true } s.m m ∧ m.inForce = s.m.inForce ∧
    m.time = (s.m.advanceTo t).time

/-- Domain d is CLOSING toward state k, for CLOSE_TIMEOUT at most (R427, R429). -/
def closesTo (s : State) (d k : Nat) (u m : Mach) : Prop :=
  domBecomes d { s.m.dom d with st := .closing, goal := k } s.m m ∧
  m.deadline (.close d) = some (u.now + usUnits (s.m.reg s.gen (key 0x8000 9)))

/-- DOMAIN_IDLE_THRESHOLD (R420, R427) in P0: the domain goes to CLOSING on its way to the deepest state that R420 lets it enter, now or
when the next idle threshold still to come is reached; where none is let, it stays. -/
def domainIdleRow : Prop := ∀ (d : Nat) (s : State), domThere s d → (s.m.dom d).st = .p0 →
  Yields (.domainIdleThreshold d) s fun m => ∃ u : Mach, changesOnly [.time] s.m u ∧ changesOnly [.time, .domains, .timers] s.m m ∧
    m.time = u.time ∧ ((deepest s.gen s.m d 0).isSome = true → u = s.m) ∧
    (deepest s.gen s.m d 0 = none → (∃ k ∈ [1, 2, 3], s.m.now < idleAt s.gen s.m d k) →
      ∃ k ∈ [1, 2, 3], s.m.now < idleAt s.gen s.m d k ∧ idleAt s.gen s.m d k ≤ u.now) ∧
    match deepest s.gen u d 0 with
    | some k => closesTo s d k u m
    | none => m = u

/-- R421: a domain in P1 for which a deeper state is let is woken first; no state but P0 leads to CLOSING. -/
def deeperRow : Prop := ∀ (d k : Nat) (s : State), domThere s d → (s.m.dom d).st = .p1 → deepest s.gen s.m d 1 = some k →
  Yields (.domainIdleThreshold d) s fun m => changesOnly [.regs, .domains, .timers] s.m m ∧
    domBecomes d { s.m.dom d with st := .waking, goal := k, hinted := false } s.m m ∧
    m.deadline (.wake d) = some (s.m.now + nsUnits (exitNs s.gen s.m d 1))

/-- R420: the state that `deepest` names is the deepest that meets every condition: idle for its threshold; a router region or NI
domain, power management on, not dead, exit latency within the tolerance, PWR_FLOOR, no class-0 pin, nothing held, no unit changing;
for P2 and P3 no multicast tree that cannot wait and no NI timer; for P3 no flow still alive. -/
def mayEnterRow : Prop := ∀ (g : Gen) (m : Mach) (d cur st : Nat), deepest g m d cur = some st →
  cur < st ∧ idleAt g m d st ≤ m.now ∧
  (g.domKind d = 1 ∨ g.domKind d = 2) ∧ m.reg g (key 0x8000 1) = 1 ∧ (m.dom d).dead = false ∧ (m.dom d).inReset = false ∧
  (∀ t, tolNs (m.reg g (domKey d 5)) = some t → exitNs g m d st ≤ t) ∧ st ≤ m.reg g (domKey d 4) ∧ c0Pinned g m d = false ∧
  (m.dom d).hold = false ∧ domainHolds m g d = false ∧ unitsChanging g m d = false ∧
  (2 ≤ st → (mcastIn g m d = true → exitNs g m d st ≤ m.cfg g (key 0x2000 2)) ∧ ∀ l ∈ nisIn g d, niTimers m l = false) ∧
  (st = 3 → ∀ l ∈ nisIn g d, flowsBusy g m l = false) ∧
  (∀ k, st < k → k ≤ 3 → m.now < idleAt g m d k ∨ mayEnterState g m d k = false)

/-- DOMAIN_CLOSE_DRAINED (R427) on the way to P1: the clock is gated. -/
def closeDrainedP1Row : Prop := ∀ (d : Nat) (s : State), domThere s d → (s.m.dom d).st = .closing → (s.m.dom d).req = 0 →
  (s.m.dom d).goal = 1 → domainHolds s.m s.gen d = false → logsCrossed s.gen s.m d = true →
  Yields (.domainCloseDrained d) s fun m => changesOnly [.domains, .timers] s.m m ∧
    domBecomes d { s.m.dom d with st := .p1, goal := 0 } s.m m ∧ m.deadline (.close d) = none

/-- DOMAIN_CLOSE_DRAINED on the way to P2: RETAIN is asked for. -/
def closeDrainedP2Row : Prop := ∀ (d : Nat) (s : State), domThere s d → (s.m.dom d).st = .closing → (s.m.dom d).req = 0 →
  (s.m.dom d).ack = 0 → (s.m.dom d).goal = 2 → domainHolds s.m s.gen d = false → logsCrossed s.gen s.m d = true →
  Yields (.domainCloseDrained d) s fun m => changesOnly [.domains, .timers, .out] s.m m ∧
    domBecomes d { s.m.dom d with req := 1, saved := [] } s.m m ∧ asks s d 1 m ∧ m.deadline (.close d) = none

/-- CLOSE_TIMEOUT (R429): when CLOSING has not drained within CLOSE_TIMEOUT the domain returns to P0, CLOSE_ABORT counts, and its idle
time counts from now. -/
def closeTimeoutRow : Prop := ∀ (d t : Nat) (s : State), domThere s d → (s.m.dom d).st = .closing → (s.m.dom d).req = 0 →
  s.m.deadline (.close d) = some t →
  Yields (.closeTimeout d) s fun m => changesOnly [.domains, .regs, .time, .timers] s.m m ∧ m.time = (s.m.advanceTo t).time ∧
    domBecomes d { s.m.dom d with st := .p0, hinted := false, woke := m.now } s.m m ∧
    m.reg s.gen (domKey d 10) = wrapped s.gen s.m (domKey d 10) 1 ∧ sameRegsBut [domKey d 10] s.m m

/-- R429, R425: a domain is not tried for a state before its IDLE threshold has passed since that moment. -/
def afterAbortRow : Prop := ∀ (g : Gen) (m : Mach) (d cur k : Nat), deepest g m d cur = some k →
  (m.dom d).woke + idleLen g m (idleSince g m d) k ≤ m.now

/-- WAKE_SEQUENCE_START (R422, R423), no domain leaving P3: the oldest hint is taken, and a domain in P1 that it names is WAKING. -/
def wakeSequenceRow : Prop := ∀ (d r t : Nat) (dest : BitVec 16) (vn : BitVec 3) (rest : List (Nat × Nat × BitVec 16 × BitVec 3 × Nat))
    (s : State), s.m.sh.hints = (d, r, dest, vn, t) :: rest → s.m.domains.has d = true → d ≠ 0 → (s.m.dom d).st = .p1 →
  leavingP3 s.gen s.m = 0 →
  Yields .wakeSequenceStart s fun m => changesOnly [.regs, .sh, .ports, .domains, .timers, .out] s.m m ∧
    m.sh = { s.m.sh with hints := rest } ∧ m.dom d = { s.m.dom d with st := .waking, goal := 0, hinted := false } ∧
    m.deadline (.wake d) = some (s.m.now + nsUnits (exitNs s.gen s.m d 1))

/-- DOMAIN_WAKE_DONE (R417, R425, R426): at the end of its exit latency a WAKING domain whose supply is ON is in P0; its idle time counts
anew, but where it only woke to go deeper, and a WAKE hold begins. -/
def domainWakeDoneRow : Prop := ∀ (d t : Nat) (s : State), domThere s d → (s.m.dom d).st = .waking → (s.m.dom d).req = 0 →
  (s.m.dom d).ack = 0 → (s.m.dom d).inReset = false → s.m.sh.waitq = [] → s.m.deadline (.wake d) = some t →
  Yields (.domainWakeDone d) s fun m => changesOnly [.domains, .time, .timers] s.m m ∧ m.time = (s.m.advanceTo t).time ∧
    domBecomes d { s.m.dom d with st := .p0, goal := 0, hinted := false, holdUs := 0
                                  woke := if (s.m.dom d).goal = 0 then m.now else (s.m.dom d).woke } s.m m ∧
    ((s.m.dom d).holdUs ≠ 0 → m.deadline (.wakeHold d) =
      some (m.now + max (usUnits (s.m.dom d).holdUs) ((s.m.deadline (.wakeHold d)).getD 0 - m.now)))

/-- WAKE_HOLD_EXPIRY (R426): the pin in P0 ends, unless another hold waits for the domain's waking. -/
def wakeHoldRow : Prop := ∀ (d t : Nat) (s : State), domThere s d → s.m.deadline (.wakeHold d) = some t →
  Yields (.wakeHoldExpiry d) s fun m => changesOnly [.domains, .time, .timers] s.m m ∧ m.time = (s.m.advanceTo t).time ∧
    domBecomes d { s.m.dom d with hold := (s.m.dom d).holdUs != 0 } s.m m

/-! #### WAKE and HOOP packets -/

/-- A good fabric-internal packet at the Shuttle's NI. -/
abbrev atShuttle (s : State) (p : Pkt) : Prop :=
  s.gen.hasNi 0 = true ∧ s.m.nis.has 0 = true ∧ p.hdr.k ≠ 0 ∧ (s.m.ni 0).ep.waiting = false ∧ p.isBad = false

/-- The packets a Shuttle places on channel 5 of its NI: none unless that NI runs and the instance is not isolated. -/
def sentFromShuttle (s : State) (ps : List Pkt) : List Pkt :=
  if (s.m.ni 0).fs = .running ∧ s.m.sh.isolated = false then ps else []

/-- WAKE (R426) at the Shuttle for one router region or NI domain in P1: it is WAKING, and pinned in P0 for HOLD from its waking on. -/
def wakeRow : Prop := ∀ (d : Nat) (p : Pkt) (s : State), atShuttle s p → p.hdr.c = 0xF2 → fidLocal p.hdr.dest ≠ 0x7F →
  p.hdr.csfFld 239 239 = 0 → p.hdr.csfFld 246 240 = d → d ≠ 0 → domThere s d → s.gen.domKind d ≠ 3 → (s.m.dom d).st = .p1 →
  Yields (.wake 0 p) s fun m => changesOnly [.regs, .nis, .domains, .timers] s.m m ∧
    domBecomes d { s.m.dom d with st := .waking, goal := 0, hinted := false,
                                  hold := (s.m.dom d).hold || p.hdr.csfFld 238 223 != 0
                                  holdUs := max (s.m.dom d).holdUs (p.hdr.csfFld 238 223) } s.m m ∧
    m.deadline (.wake d) = some (s.m.now + nsUnits (exitNs s.gen s.m d 1)) ∧
    m.reg s.gen (domKey d 8) = wrapped s.gen s.m (domKey d 8) 1 ∧ sameRegsBut [domKey d 8] s.m m

/-- WAKE (R426, R432) at the Shuttle for a link layer's domain: its link begins to leave its power state. That a hold keeps the domain
in P0 from then on, as one of another domain does, and that the domain's wake is its link's are log 99. -/
def wakeLinkRow : Prop := ∀ (d q : Nat) (p : Pkt) (s : State), atShuttle s p → p.hdr.c = 0xF2 → fidLocal p.hdr.dest ≠ 0x7F →
  p.hdr.csfFld 239 239 = 0 → p.hdr.csfFld 246 240 = d → d ≠ 0 → domThere s d → s.gen.domKind d = 3 → portsIn s.gen d = [q] →
  s.m.ports.has q = true → (s.m.port q).pwr ≠ 0 → (s.m.port q).exiting = false →
  Yields (.wake 0 p) s fun m => changesOnly [.nis, .domains, .ports, .timers, .out] s.m m ∧
    (m.port q).exiting = true ∧ (m.port q).ask = 0 ∧ (m.port q).pwr = (s.m.port q).pwr ∧
    m.deadline (.linkExit q) = some (s.m.now + nsUnits (linkExitNs (s.m.port q).pwr)) ∧
    (m.dom d).hold = ((s.m.dom d).hold || p.hdr.csfFld 238 223 != 0)

/-- WAKE_SEND (R426): one WAKE leaves for DEST on VN G at class 1, with DOMAIN, ALL and HOLD as written. -/
def wakeSendRow : Prop := ∀ (v : Nat) (s : State), s.m.nis.has 0 = true → (s.m.ni 0).fs = .running → s.m.sh.isolated = false →
  Yields (.wakeSend v) s fun m => changesOnly [.nis, .out] s.m m ∧ m.out = s.m.out ++ [.status 0] ∧
    (∀ j, j ≠ 0 → m.ni j = s.m.ni j) ∧
    ∃ p : Pkt, (m.ni 0).ep.ingress.getD 5 [] = (s.m.ni 0).ep.ingress.getD 5 [] ++ [p] ∧ p.hdr.c = 0xF2 ∧ p.hdr.v = 5 ∧
      p.hdr.k = 1 ∧ p.hdr.dest = BitVec.ofNat 16 (v / 2 ^ 48) ∧ p.hdr.src = s.m.fid s.gen 0 ∧
      p.hdr.csfFld 246 240 = fld v 46 40 ∧ p.hdr.csfFld 239 239 = fld v 47 47 ∧ p.hdr.csfFld 238 223 = fld v 15 0

/-- The hoop objects after arming for time t with an ID (R500). -/
def hoopArmed (t id : Nat) (a b : Mach) (g : Gen) : Prop :=
  b.sh = { a.sh with hoop := some (t, id) } ∧ b.reg g (hoopKey 1) = a.reg g (hoopKey 1) ||| 1 ∧ b.reg g (hoopKey 2) = id ∧
  b.reg g (hoopKey 4) = t ∧ sameRegsBut [hoopKey 1, hoopKey 2, hoopKey 4] a b

/-- HOOP (R500): the write arms this instance for T under the next ID and sends one copy to every routed node. -/
def hoopRow : Prop := ∀ (t : Nat) (s : State), s.m.nis.has 0 = true → s.m.sh.hoop = none → s.m.ft < t % 2 ^ 80 →
  let id := (s.m.reg s.gen (hoopKey 2) + 1) % 65536
  Yields (.hoop t) s fun m => changesOnly [.regs, .hw, .sh, .nis, .out] s.m m ∧ m.out = s.m.out ++ [.status 0] ∧
    hoopArmed (t % 2 ^ 80) id s.m m s.gen ∧ (∀ j, j ≠ 0 → m.ni j = s.m.ni j) ∧
    (m.ni 0).ep.ingress.getD 5 [] = (s.m.ni 0).ep.ingress.getD 5 [] ++
      sentFromShuttle s ((otherNodes s.gen s.m).map (hoopPkt s.gen s.m (t % 2 ^ 80) id))

/-- HOOP_RECEIVE (R500): a HOOP of the own package, or for all, arms with the packet's time and ID. -/
def hoopReceiveRow : Prop := ∀ (p : Pkt) (s : State), atShuttle s p → p.hdr.c = 0xF3 → fidLocal p.hdr.dest ≠ 0x7F →
  (p.hdr.csfFld 242 242 = 1 ∨ p.hdr.csfFld 246 243 = s.m.package s.gen) → s.m.sh.hoop = none →
  s.m.ft < p.hdr.csfFld 239 160 →
  Yields (.hoopReceive 0 p) s fun m => changesOnly [.regs, .hw, .sh, .nis] s.m m ∧
    hoopArmed (p.hdr.csfFld 239 160) (p.hdr.csfFld 159 144) s.m m s.gen

/-- HOOP_RECEIVE of another package's HOOP that is not for all (R500). -/
def hoopForeignRow : Prop := ∀ (p : Pkt) (s : State), atShuttle s p → p.hdr.c = 0xF3 → p.hdr.csfFld 242 242 = 0 →
  p.hdr.csfFld 246 243 ≠ s.m.package s.gen →
  Yields (.hoopReceive 0 p) s fun m => changesOnly [.nis] s.m m ∧ (m.ni 0).ep = (s.m.ni 0).ep ∧ (m.ni 0).tx = (s.m.ni 0).tx

/-- The numbers of the parts are those a generated description can have (R14, R23, R297, R400). -/
abbrev plainGen (g : Gen) : Prop :=
  g.dimX ≤ 16 ∧ g.dimY ≤ 16 ∧ (∀ n ∈ g.nis, n.loc < 127) ∧ (∀ q ∈ g.ports, q.p < 8) ∧ (∀ d ∈ g.doms, d.d < 128) ∧ g.engineCount ≤ 128

/-- HOOP_SNAPSHOT (R501, R502): as fabric time reaches T, every counter of routers, NIs, domains and ports stands in its shadow; the hoop is DONE, and
UNLOCKED where TIME_STATE is not LOCKED. -/
def hoopSnapshotRow : Prop := ∀ (t id : Nat) (s : State), plainGen s.gen → s.m.sh.hoop = some (t, id) →
  Yields .hoopSnapshot s fun m => changesOnly [.regs, .hw, .sh, .time] s.m m ∧ m.sh = { s.m.sh with hoop := none } ∧
    m.time = (s.m.advanceFt t).time ∧
    m.reg s.gen (hoopKey 3) = t ∧ bit (m.reg s.gen (hoopKey 1)) 0 = false ∧ bit (m.reg s.gen (hoopKey 1)) 1 = true ∧
    (s.m.time.st ≠ .locked → bit (m.reg s.gen (hoopKey 1)) 4 = true) ∧
    (∀ r ∈ s.gen.routers, ∀ e, e < 32 → m.reg s.gen (key (0xA100 + r) (0x20 + e)) = s.m.reg s.gen (key (0xA100 + r) e)) ∧
    (∀ n ∈ s.gen.nis, n.loc ≠ 0 → ∀ e, e < 64 →
      m.reg s.gen (key (0xA200 + n.loc) (0x40 + e)) = s.m.reg s.gen (key (0xA200 + n.loc) e)) ∧
    (∀ n ∈ s.gen.nis, s.gen.isInit n.loc = true → n.loc ≠ 0 → ∀ e, e < 16 →
      m.reg s.gen (key (0xA200 + n.loc) (0xA0 + e)) = s.m.reg s.gen (key (0xA200 + n.loc) (0x90 + e))) ∧
    (∀ n ∈ s.gen.nis, n.loc ≠ 0 → ∀ e, 1 ≤ e → e < 6 →
      m.reg s.gen (key (0xA600 + n.loc) e) = s.m.reg s.gen (key (0x3600 + n.loc) e)) ∧
    (∀ d ∈ s.gen.doms, ∀ e, 8 ≤ e → e < 13 → m.reg s.gen (key (0xA400 + d.d) e) = s.m.reg s.gen (domKey d.d e)) ∧
    ∀ q ∈ s.gen.ports, ∀ e, (9 ≤ e ∧ e < 14 ∨ e = 0x12) → m.reg s.gen (key (0xA500 + q.p) e) = s.m.reg s.gen (portKey q.p e)

end Sys2Proof.Machine

open Sys2Proof.Machine in
/-- BRIDGE_FAR_RESET, BRIDGE_REOPEN and BRIDGE_DEAD (R410 to R412, R448). -/
def Obligations.DomainBridges : Prop := bridgeFarResetRow ∧ bridgeReopenRow ∧ bridgeDeadRow ∧ bridgeIsolateRow

open Sys2Proof.Machine in
/-- PWR_ACK, PWR_ACK_TIMEOUT, DOMAIN_IDLE_THRESHOLD, DOMAIN_CLOSE_DRAINED, WAKE_SEQUENCE_START, DOMAIN_WAKE_DONE and
WAKE_HOLD_EXPIRY (R416, R417, R420 to R427). -/
def Obligations.PowerStates : Prop :=
  pwrAckWakeRow ∧ pwrAckCloseRow ∧ pwrAckOffRow ∧ pwrAckTimeoutRow ∧ domainIdleRow ∧ deeperRow ∧ mayEnterRow ∧ closeDrainedP1Row ∧ closeDrainedP2Row ∧
  wakeSequenceRow ∧ domainWakeDoneRow ∧ wakeHoldRow

open Sys2Proof.Machine in
/-- R429: CLOSE_TIMEOUT brings the domain back to P0 and counts CLOSE_ABORT, and the domain is not tried again before its IDLE
threshold has passed since. -/
def Obligations.CloseAbort : Prop := closeTimeoutRow ∧ afterAbortRow

open Sys2Proof.Machine in
/-- WAKE, WAKE_SEND, HOOP, HOOP_RECEIVE and HOOP_SNAPSHOT (R426, R500 to R502). -/
def Obligations.WakesAndHoops : Prop :=
  wakeRow ∧ wakeLinkRow ∧ wakeSendRow ∧ hoopRow ∧ hoopReceiveRow ∧ hoopForeignRow ∧ hoopSnapshotRow

namespace Sys2Proof.Machine

open Sys2Proof

/-! ### Management requests at the Shuttle -/

/-- An in-band request that the Shuttle accepts as it comes: in order at its NI, a router not STOPPED (R143), nothing waiting, none
accepted in this ao cycle (R458, R461). -/
abbrev mgAccepted (s : State) (p : Pkt) (f : DstFlow) : Prop :=
  inOrder s 0 p f ∧ s.m.allStopped s.gen (unitsOf s.gen 1) = false ∧ s.m.sh.waitq = [] ∧ s.m.sh.accepted ≠ s.m.aoCycle

/-- A well-formed request to local ID 0x00 for object o, whose domain is awake (R460, R464, R468). -/
abbrev mgNames (s : State) (p : Pkt) (o : Obj) : Prop :=
  mgMalformed p.hdr = false ∧ fidLocal p.hdr.dest ≠ 0x7F ∧ objOf s.gen (addrKey p.hdr.a) = some o ∧
  mustWait s.gen s.m (addrKey p.hdr.a) = false

/-- The acceptance is noted, and RSP_MGMT `r` leaves by NI 0 (R466). -/
def mgAnswered (r : Pkt) (a b : Mach) : Prop :=
  (∀ j, j ≠ 0 → b.ni j = a.ni j) ∧ (b.ni 0).ep = (a.ni 0).ep ∧
  (b.ni 0).tx = { (a.ni 0).tx with internal := (a.ni 0).tx.internal ++ [r] } ∧ b.sh = { a.sh with accepted := a.aoCycle }

/-- R143: while every router is STOPPED, no in-band request reaches the Shuttle. -/
def mgStoppedRow : Prop := ∀ (instr : Nat → Pkt → Instr) (p : Pkt) (s : State),
  (instr = .mgRead ∨ instr = .mgWrite ∨ instr = .mgInfo ∨ instr = .mgVpSquash ∨ instr = .mgReservedCmd) →
  isManagement p.hdr.c = true → s.m.allStopped s.gen (unitsOf s.gen 1) = true → Yields (instr 0 p) s fun m => m = s.m

/-- MG_READ (R11, R464 to R467): the answer carries what a read of the object returns. -/
def mgReadRow : Prop := ∀ (p : Pkt) (s : State) (f : DstFlow) (o : Obj), mgAccepted s p f → p.hdr.c = 0xA0 → mgNames s p o →
  Yields (.mgRead 0 p) s fun m => changesOnly [.nis, .sh] s.m m ∧
    mgAnswered (mgmtRsp s.gen s.m p.hdr stOk 0 0 0 0 (toBytes (objRead s.gen m (addrKey p.hdr.a) o) o.ty.size)) s.m m

/-- MG_INFO (R462, R465): the answer carries the object's descriptor. -/
def mgInfoRow : Prop := ∀ (p : Pkt) (s : State) (f : DstFlow) (o : Obj), mgAccepted s p f → p.hdr.c = 0xA2 → mgNames s p o →
  Yields (.mgInfo 0 p) s fun m => changesOnly [.nis, .sh] s.m m ∧
    mgAnswered (mgmtRsp s.gen s.m p.hdr stOk 0 0 0 0
      (toBytes (o.descriptor (addrKey p.hdr.a) (dfltOf s.gen s.m (addrKey p.hdr.a))) 16)) s.m m

/-- Indexes whose RW objects only hold a value: the Shuttle's, routing, time, hoop, router counter and aging settings. -/
def plainIndex (i : Nat) : Prop :=
  i = 0x1100 ∨ i = 0x2000 ∨ i = 0x3000 ∨ i = 0xA000 ∨ (0xA100 ≤ i ∧ i < 0xA200) ∨ i = 0xA801

/-- Object k takes value v and no other object changes. -/
def objBecomes (g : Gen) (k v : Nat) (a b : Mach) : Prop := b.reg g k = v ∧ sameRegsBut [k] a b

/-- MG_WRITE (R10, R11, R14, R465) of a value that is in order to an RW object that only holds a value: the object holds it, less
its reserved bits. -/
def mgWriteRow : Prop := ∀ (p : Pkt) (s : State) (f : DstFlow) (o : Obj), mgAccepted s p f → p.hdr.c = 0xA1 → mgNames s p o →
  let k := addrKey p.hdr.a
  plainIndex (k / 256) → o.acc = .rw → p.bytes.length = o.ty.size → valueOk s.gen s.m k o (ofBytes p.bytes) = true →
  Yields (.mgWrite 0 p) s fun m => changesOnly [.regs, .nis, .sh] s.m m ∧
    objBecomes s.gen k (written s.m k (ofBytes p.bytes &&& o.mask)) s.m m ∧ mgAnswered (mgmtRsp s.gen s.m p.hdr stOk 0 0 0 0 []) s.m m

/-- MG_WRITE of an RO or CONST object (R11, R12). -/
def mgReadOnlyRow : Prop := ∀ (p : Pkt) (s : State) (f : DstFlow) (o : Obj), mgAccepted s p f → p.hdr.c = 0xA1 → mgNames s p o →
  (o.acc = .ro ∨ o.acc = .const) →
  Yields (.mgWrite 0 p) s fun m => changesOnly [.nis, .sh] s.m m ∧ mgAnswered (mgmtRsp s.gen s.m p.hdr stOk 2 0 0 0 []) s.m m

/-- Reserved management commands (R465, R467): MG_UNKNOWN. -/
def mgReservedRow : Prop := ∀ (p : Pkt) (s : State) (f : DstFlow), mgAccepted s p f → 0xA4 ≤ p.hdr.c → p.hdr.c ≤ 0xAF →
  Yields (.mgReservedCmd 0 p) s fun m => changesOnly [.nis, .sh] s.m m ∧
    mgAnswered (mgmtRsp s.gen s.m p.hdr stOk 0x0A 0 0 0 []) s.m m

/-- R468: a request with a wrong ADDR or a reserved bit set is answered PROTOCOL and counted. -/
def mgMalformedRow : Prop := ∀ (p : Pkt) (s : State) (f : DstFlow), mgAccepted s p f → p.hdr.c = 0xA0 →
  mgMalformed p.hdr = true →
  Yields (.mgRead 0 p) s fun m => changesOnly [.regs, .nis, .sh] s.m m ∧
    objBecomes s.gen (key 0x1100 5) (capped s.gen s.m (key 0x1100 5) 1) s.m m ∧
    mgAnswered (mgmtRsp s.gen s.m p.hdr stProtocol 0 0 0 0 []) s.m m

/-- R461: with 16 in-band requests waiting, one more is answered BUSY and counted. -/
def mgBusyRow : Prop := ∀ (p : Pkt) (s : State) (f : DstFlow), inOrder s 0 p f →
  s.m.allStopped s.gen (unitsOf s.gen 1) = false → p.hdr.c = 0xA0 → 16 ≤ inBandWaiting s.m →
  Yields (.mgRead 0 p) s fun m => changesOnly [.regs, .nis] s.m m ∧
    objBecomes s.gen (key 0x1100 4) (capped s.gen s.m (key 0x1100 4) 1) s.m m ∧
    (m.ni 0).tx = { (s.m.ni 0).tx with internal := (s.m.ni 0).tx.internal ++ [mgmtRsp s.gen s.m p.hdr stOk 0x0C 0 0 0 []] }

/-- Context c of engine i is owned by (fid, v) and not already ending. -/
def ownedCtx (s : State) (fid v i c : Nat) : Bool :=
  match s.m.ctx? i c with
  | some x => x.ownerSrc.toNat == fid && x.ownerVport.toNat == v && x.st != .ending
  | none => false

/-- MG_VP_SQUASH (R470, R293) from a Shuttle: every context of the owner ends, and SQUASHED tells how many. -/
def mgVpSquashRow : Prop := ∀ (p : Pkt) (s : State) (f : DstFlow), mgAccepted s p f → p.hdr.c = 0xA3 →
  mgMalformed p.hdr = false → fidLocal p.hdr.src = 0 →
  let fid := p.hdr.csfFld 239 224
  let v := p.hdr.csfFld 223 214
  let n := ((List.range s.gen.engineCount).map fun i => ((List.range 8).filter fun c => ownedCtx s fid v i c).length).sum
  Yields (.mgVpSquash 0 p) s fun m =>
    (m.ni 0).tx.internal = (s.m.ni 0).tx.internal ++ [mgmtRsp s.gen s.m p.hdr stOk 0 0 0 n []] ∧
    ∀ i, i < s.gen.engineCount → ∀ c, c < 8 → ownedCtx s fid v i c = true → (m.ctx? i c).map (·.st) = some .ending

/-- MG_VP_SQUASH from a SRC whose LOCAL is not 0x00 (R467): MG_DENIED, and nothing ends. -/
def mgDeniedRow : Prop := ∀ (p : Pkt) (s : State) (f : DstFlow), mgAccepted s p f → p.hdr.c = 0xA3 →
  mgMalformed p.hdr = false → fidLocal p.hdr.src ≠ 0 →
  Yields (.mgVpSquash 0 p) s fun m => changesOnly [.nis, .sh] s.m m ∧
    mgAnswered (mgmtRsp s.gen s.m p.hdr stOk 0x0B 0 0 0 []) s.m m

/-- RSP_MGMT to a request (R55, R466): back to SRC on VN P at class 1 with the request's TAG, and the result in CSF. -/
def mgmtRspRow : Prop := ∀ (g : Gen) (m : Mach) (h : Hdr) (status mg ok fail sq : Nat) (bs : List Byte), status < 16 → mg < 256 →
  ok < 1024 → fail < 1024 → sq < 2048 → bs.length ≤ 256 → isManagement h.c = true →
  let p := mgmtRsp g m h status mg ok fail sq bs
  p.hdr.c = 0x93 ∧ p.hdr.v = 2 ∧ p.hdr.k = 1 ∧ p.hdr.dest = h.src ∧ p.hdr.src = m.fid g 0 ∧ p.hdr.tag = h.tag ∧
  p.hdr.n = bs.length ∧ p.hdr.status = status ∧ p.hdr.csfFld 242 235 = mg ∧ p.hdr.csfFld 234 225 = ok ∧
  p.hdr.csfFld 224 215 = fail ∧ p.hdr.csfFld 214 204 = sq ∧ p.bytes = bs

/-- BROADCAST_ANSWER (R469), once every copy has been answered or two control ticks have passed: one answer with the own MG_STATUS;
copies not answered count as failed. -/
def broadcastAnswerRow : Prop := ∀ (b t : Nat) (x : Bcast) (s : State), s.m.sh.bcast.get? b = some x → s.m.nis.has 0 = true →
  isManagement x.hdr.c = true → (x.waiting = [] ∧ t = s.m.now ∨ x.waiting ≠ [] ∧ s.m.deadline (.bcast b) = some t) →
  Yields (.broadcastAnswer b) s fun m => changesOnly [.nis, .sh, .time, .timers] s.m m ∧ m.time = (s.m.advanceTo t).time ∧
    (m.ni 0).tx.internal = (s.m.ni 0).tx.internal ++ [mgmtRsp s.gen s.m x.hdr stOk x.status x.ok (x.fail + x.waiting.length) 0 []] ∧
    m.sh.bcast = s.m.sh.bcast.del b ∧ m.deadline (.bcast b) = none ∧ ∀ c ∈ m.sh.calls, ∀ n, c.2 ≠ .copy b n

/-! #### Out-of-band -/

/-- A vendor message for this instance, whose MCTP endpoint is up. -/
abbrev mctpFor (s : State) (iana : BitVec 32) : Prop := mctpUp s.gen s.m = true ∧ iana.toNat = s.gen.vendorIana

/-- A MG_REQ that is accepted as it comes. -/
abbrev mgReqAccepted (s : State) (msg : List Byte) (q : MgReq) : Prop :=
  MgReq.ofBytes msg = some q ∧ mctpFor s q.iana ∧ s.m.sh.waitq = [] ∧ s.m.sh.accepted ≠ s.m.aoCycle

/-- MG_REQ (R472, R473) of MG_READ to the own dictionary. -/
def mgReqReadRow : Prop := ∀ (msg : List Byte) (q : MgReq) (o : Obj) (s : State), mgReqAccepted s msg q → q.op = 0xA0 →
  (q.target = 0xFFFF ∨ q.target.toNat = s.m.node s.gen) → objOf s.gen (mgReqKey q) = some o →
  mustWait s.gen s.m (mgReqKey q) = false →
  Yields (.mgReq msg) s fun m => changesOnly [.sh, .out] s.m m ∧ m.sh = { s.m.sh with accepted := s.m.aoCycle } ∧
    m.out = s.m.out ++ [.mctp (mgRspMsg s.gen 0xA0 0 (toBytes (objRead s.gen s.m (mgReqKey q) o) o.ty.size))]

/-- MG_REQ to another node (R464, R473): it goes on in-band to (TARGET_NODE, 0x00), and the Shuttle waits two control ticks for its
answer. -/
def mgReqForwardRow : Prop := ∀ (msg : List Byte) (q : MgReq) (id : Nat) (s : State), mgReqAccepted s msg q →
  (q.op = 0xA0 ∨ q.op = 0xA2) → q.target ≠ 0xFFFF → q.target.toNat ≠ s.m.node s.gen → s.m.nis.has 0 = true →
  (s.m.ni 0).fs = .running → s.m.sh.isolated = false → s.m.sh.calls.lowestFree 0 4096 = some id →
  Yields (.mgReq msg) s fun m => changesOnly [.sh, .nis, .timers] s.m m ∧
    m.sh = { s.m.sh with accepted := s.m.aoCycle, calls := s.m.sh.calls.put id (.forward q) } ∧
    m.deadline (.forward id) = some (s.m.now + s.m.ticksOn 2) ∧
    ∃ p : Pkt, (m.ni 0).ep.ingress.getD 5 [] = (s.m.ni 0).ep.ingress.getD 5 [] ++ [p] ∧ p.hdr.cmd = q.op ∧ p.hdr.v = 5 ∧
      p.hdr.k = 1 ∧ p.hdr.dest = BitVec.ofNat 16 (q.target.toNat * 128) ∧ p.hdr.tag = BitVec.ofNat 12 id ∧
      addrKey p.hdr.a = mgReqKey q ∧ mgMalformed p.hdr = false

/-- R461: with 4 out-of-band requests waiting, one more is answered BUSY. -/
def mgReqBusyRow : Prop := ∀ (msg : List Byte) (q : MgReq) (s : State), MgReq.ofBytes msg = some q → mctpFor s q.iana →
  4 ≤ outBandWaiting s.m →
  Yields (.mgReq msg) s fun m => changesOnly [.regs, .out] s.m m ∧
    m.out = s.m.out ++ [.mctp (mgRspMsg s.gen q.op.toNat 0x0C [])] ∧
    objBecomes s.gen (key 0x1100 4) (capped s.gen s.m (key 0x1100 4) 1) s.m m

/-- R472: the bytes of a vendor message of one VCODE and body: a TYPE of 0x7F, the IANA number most significant byte first, the
VCODE, the body. -/
def messageRow : Prop := ∀ (iana code : Nat) (body : List Byte), iana < 2 ^ 32 → code < 256 →
  let b := vendorMsg iana code body
  b.length = 6 + body.length ∧ b.getD 0 0 = 0x7F ∧ b.getD 5 0 = BitVec.ofNat 8 code ∧ b.drop 6 = body ∧
  (∀ i, i < 4 → b.getD (1 + i) 0 = BitVec.ofNat 8 (iana / 256 ^ (3 - i))) ∧ vendorBody code b = some (iana, body)

/-- MG_FORWARD_TIMEOUT (R473): two control ticks without an answer; BUSY to the host. -/
def mgForwardTimeoutRow : Prop := ∀ (id d : Nat) (q : MgReq) (s : State), s.m.sh.calls.get? id = some (.forward q) →
  s.m.deadline (.forward id) = some d →
  Yields (.mgForwardTimeout id) s fun m => changesOnly [.sh, .out, .time, .timers] s.m m ∧ m.time = (s.m.advanceTo d).time ∧
    m.deadline (.forward id) = none ∧ m.sh = { s.m.sh with calls := s.m.sh.calls.del id } ∧
    m.out = s.m.out ++ [.mctp (mgRspMsg s.gen q.op.toNat 0x0C [])]

/-- SET_ENDPOINT_ID (R471): MCTP_EID holds it, and STORE goes to its sender (R481). -/
def setEndpointIdRow : Prop := ∀ (eid sender : Nat) (s : State), mctpUp s.gen s.m = true → eid < 256 →
  Yields (.setEndpointId eid sender) s fun m => changesOnly [.regs, .sh] s.m m ∧ objBecomes s.gen (key 0x1100 1) eid s.m m ∧
    m.sh = { s.m.sh with host := some sender }

/-- ENTDAA (R471): the dynamic address is taken. -/
def entdaaRow : Prop := ∀ (addr : BitVec 7) (s : State), s.m.sh.porN = true → 2 ≤ s.m.reg s.gen (key 0x1200 1) →
  Yields (.entdaa addr) s fun m => changesOnly [.regs] s.m m ∧ objBecomes s.gen (key 0x1100 2) addr.toNat s.m m

/-- R528: Get Vendor Defined Message Support is answered with the value of VENDOR_IANA. -/
def vendorSupportRow : Prop := ∀ s : State, mctpUp s.gen s.m = true →
  (∃ o, objOf s.gen (key 0x1000 3) = some o ∧ o.acc = .const ∧ o.dflt = s.gen.vendorIana) ∧
  Yields .getVendorDefinedMessageSupport s fun m => changesOnly [.out] s.m m ∧ m.out = s.m.out ++ [.mctpVendor s.gen.vendorIana]

/-- R528: a vendor message with another IANA is discarded without answer. -/
def foreignVendorRow : Prop := ∀ (u v w : List Byte) (s : State),
  (∀ code x, vendorBody code (u ++ v ++ w) = some x → x.1 ≠ s.gen.vendorIana) →
  (∀ i ∈ [Instr.mgReq (u ++ v ++ w), .imageChunk u v w, .imageEnd u (v ++ w), .imageAck u (v ++ w)], Yields i s fun m => m = s.m)

/-! #### The dictionary -/

/-- R12: a REGISTER_WRITE that is refused leaves nothing behind but its answer. -/
def refusedWriteRow : Prop := ∀ (index sub size value : Nat) (s : State),
  (∃ c, c ≠ 0 ∧ Yields (.registerWrite index sub size value) s fun m => m.out.getLast? = some (.status c)) →
  Yields (.registerWrite index sub size value) s fun m =>
    ∃ c, c ≠ 0 ∧ m = { s.m with out := s.m.out ++ [.status c] }

/-- R12: a write the Shuttle refuses, by whatever path it comes, changes no state. -/
def refusedObjRow : Prop := ∀ (g : Gen) (m : Mach) (k size v : Nat), (writeObj g m k size v).2 ≠ 0 → (writeObj g m k size v).1 = m

/-- R5: a write to an object the instance was not generated with is answered OBJECT_ABSENT. -/
def absentObjRow : Prop := ∀ (index sub size value : Nat) (s : State), index < 65536 → sub < 256 →
  objOf s.gen (key index sub) = none →
  Yields (.registerWrite index sub size value) s fun m => m = { s.m with out := s.m.out ++ [.status 1] }

/-- The commands that are a write to an object of NI l's virtual port v. -/
def portWrites (l v : Nat) : List Instr :=
  [.freeze l v, .thaw l v, .save l v, .restore l v, .reset l v, .vpEnable l v, .vpDisable l v]

/-- R5: a write of that kind is answered so for every part the instance was not generated with, by whichever command, and does
nothing. -/
def absentCommandRow : Prop := ∀ (s : State) (n v : Nat),
  let absent (i : Instr) : Prop := Yields i s fun m => m = { s.m with out := s.m.out ++ [.status 1] }
  ((s.gen.isInit n = false ∨ 1024 ≤ v) → ∀ i ∈ portWrites n v, absent i) ∧
  (s.gen.isInit n = false → absent (.denyClear n)) ∧ (s.gen.hasNi n = false → absent (.pvRelease n)) ∧
  (s.gen.hasPort n = false → absent (.retrain n) ∧ absent (.disable n) ∧ absent (.enable n)) ∧
  (1024 ≤ n → absent (.groupEnable n) ∧ absent (.groupDisable n)) ∧
  (s.gen.hasEngine n = false → absent (.startCtx n v)) ∧ (hasLog s.gen n = false → absent (.logClear n))

/-- R522: the codes that a value or an access code alone gives, in their order: read-only, length, range. -/
def writeOrderRow : Prop := ∀ (index sub size value : Nat) (o : Obj) (s : State), index < 65536 → sub < 256 →
  objOf s.gen (key index sub) = some o →
  (((o.acc = .ro ∨ o.acc = .const) ∨ size ≠ o.ty.size ∨ valueOk s.gen s.m (key index sub) o value = false) →
  Yields (.registerWrite index sub size value) s fun m =>
    m = { s.m with out := s.m.out ++ [.status (if o.acc = .ro ∨ o.acc = .const then 2 else if size ≠ o.ty.size then 9 else 4)] })

/-- R11: an RWS object of a function that is not STOPPED is refused with ACCESS_STOP_REQUIRED. -/
def stopRequiredRow : Prop := ∀ (index sub size value : Nat) (o : Obj) (w : Owner) (s : State), index < 65536 → sub < 256 →
  objOf s.gen (key index sub) = some o → o.acc = .rws → size = o.ty.size → valueOk s.gen s.m (key index sub) o value = true →
  ownerOf s.gen (key index sub) = some w → s.m.ownerStopped s.gen w = false →
  Yields (.registerWrite index sub size value) s fun m => m = { s.m with out := s.m.out ++ [.status 3] }

/-- REGISTER_WRITE (R10, R11) of a value that is in order to an RW object that only holds a value; what hardware
updated of it in the same ao cycle comes after the write (R14). -/
def registerWriteRow : Prop := ∀ (index sub value : Nat) (o : Obj) (s : State), plainIndex index → sub < 256 →
  objOf s.gen (key index sub) = some o → o.acc = .rw → valueOk s.gen s.m (key index sub) o value = true →
  mustWait s.gen s.m (key index sub) = false →
  Yields (.registerWrite index sub o.ty.size value) s fun m => changesOnly [.regs, .out] s.m m ∧
    objBecomes s.gen (key index sub) (written s.m (key index sub) (value &&& o.mask)) s.m m ∧ m.out = s.m.out ++ [.status 0]

/-- RESTORE_DEFAULTS (R483) of a STOPPED router: its RW objects read their defaults, every other function's stay, and
CMD_STATUS shows DONE. -/
def restoreRouterRow : Prop := ∀ (r : Nat) (s : State), s.gen.hasRouter r = true → r < 256 → (s.m.rt s.gen r).fs = .stopped →
  s.m.sh.job = none →
  Yields (.restoreDefaults (0x1000 + r)) s fun m => changesOnly [.regs, .inForce, .out] s.m m ∧ m.out = s.m.out ++ [.status 0] ∧
    m.reg s.gen cmdStatusKey = 4 * 2 ^ 24 + (0x1000 + r) ∧
    (∀ k, k = key (0x9100 + r) 7 ∨ k = key (0xA100 + r) 0x40 ∨ k = key (0xA100 + r) 0x41 → m.reg s.gen k = written s.m k (dfltOf s.gen s.m k)) ∧
    ∀ k, k ≠ cmdStatusKey → ownerOf s.gen k ≠ some (.func (0x1000 + r)) → m.regs.get? k = s.m.regs.get? k

/-- RESTORE_DEFAULTS of a router that is not STOPPED (R483). -/
def restoreRefusedRow : Prop := ∀ (r : Nat) (s : State), s.gen.hasRouter r = true → r < 256 → (s.m.rt s.gen r).fs ≠ .stopped →
  Yields (.restoreDefaults (0x1000 + r)) s fun m => m = { s.m with out := s.m.out ++ [.status 3] }

/-! #### STORE and the image -/

/-- STORE (R481) without an endpoint to send to fails. -/
def storeFailsRow : Prop := ∀ (v : Nat) (s : State), s.m.sh.job = none → s.m.sh.host = none →
  Yields (.store v) s fun m => changesOnly [.regs, .out] s.m m ∧ m.out = s.m.out ++ [.status 0] ∧
    objBecomes s.gen cmdStatusKey (3 * 2 ^ 24 + 3 * 2 ^ 16) s.m m

/-- The bytes of the chunks among what left the block, in order. -/
def chunkBytes (os : List Out) : List Byte :=
  os.flatMap fun o => match o with | .mctp b => ((chunkOf b).map fun x => x.2.2).getD [] | _ => []

/-- A chunk of at most 256 B of this vendor, at a multiple of 256. -/
def isChunk (g : Gen) (o : Out) : Prop :=
  ∃ a bs, o = .mctp (vendorMsg g.vendorIana 3 (toBytes a 4 ++ toBytes bs.length 2 ++ bs)) ∧ a % 256 = 0 ∧ bs.length ≤ 256

/-- STORE (R480, R481): the image of this moment goes out as chunks of at most 256 B, then IMAGE_END; STORE is running, and awaits
its answer for STORE_TIMEOUT. -/
def storeSendsRow : Prop := ∀ (v h : Nat) (s : State), s.m.sh.job = none → s.m.sh.host = some h →
  Yields (.store v) s fun m => changesOnly [.regs, .sh, .timers, .out] s.m m ∧
    objBecomes s.gen cmdStatusKey (2 ^ 31 + 3 * 2 ^ 24) s.m m ∧ m.sh = { s.m.sh with job := some ⟨3, 0, [], 0⟩ } ∧
    m.deadline .store = some (s.m.now + usUnits (1000 * s.m.reg s.gen (key 0x1100 7))) ∧
    ∃ cs, m.out = s.m.out ++ cs ++
        [.mctp (vendorMsg s.gen.vendorIana 4 (toBytes (imageBytes s.gen s.m).length 4)), .status 0] ∧
      chunkBytes cs = imageBytes s.gen s.m ∧ ∀ c ∈ cs, isChunk s.gen c

/-- A STORE that is running completes with RESULT n. -/
def storeEndsWith (n : Nat) (s : State) (m : Mach) : Prop :=
  changesOnly [.regs, .sh, .timers, .time] s.m m ∧ objBecomes s.gen cmdStatusKey (3 * 2 ^ 24 + n * 2 ^ 16) s.m m ∧
  m.sh = { s.m.sh with job := none } ∧ m.deadline .store = none

/-- IMAGE_ACK (R481): DONE for RESULT 0, STORE_FAILED for 1. -/
def imageAckRow : Prop := ∀ (u v : List Byte) (iana : BitVec 32) (result : Nat) (j : Job) (s : State),
  imageAckOf (u ++ v) = some (iana, result) → mctpFor s iana → s.m.sh.job = some j → j.sub = 3 →
  (result = 0 → Yields (.imageAck u v) s fun m => storeEndsWith 0 s m ∧ m.time = s.m.time) ∧
  (result = 1 → Yields (.imageAck u v) s fun m => storeEndsWith 3 s m ∧ m.time = s.m.time)

/-- STORE_TIMEOUT (R481): as long after the last message of the image. -/
def storeTimeoutRow : Prop := ∀ (j : Job) (d : Nat) (s : State), s.m.sh.job = some j → j.sub = 3 → s.m.deadline .store = some d →
  Yields .storeTimeout s fun m => storeEndsWith 4 s m ∧ m.time = (s.m.advanceTo d).time

/-- IMAGE_WAIT (R485): step 3 ends without an image, and IMAGE_STATUS tells so. -/
def imageWaitRow : Prop := ∀ (d : Nat) (s : State), inStep3 s.gen s.m = true → s.m.sh.imageSeen = false →
  s.m.deadline .image = some d →
  Yields .imageWait s fun m => changesOnly [.regs, .sh, .nis, .time, .timers] s.m m ∧ m.time = (s.m.advanceTo d).time ∧
    m.deadline .image = none ∧ m.reg s.gen (key 0x1200 3) = 2 ^ 24 ∧ startupState s.gen m = 4 ∧
    sameRegsBut [key 0x1200 3, startupKey] s.m m

/-- IMAGE_CHUNK (R472, R484): its bytes stand at their offset in the image, the others stay. -/
def imageChunkRow : Prop := ∀ (u v w : List Byte) (iana : BitVec 32) (a : Nat) (bs : List Byte) (s : State),
  chunkOf (u ++ v ++ w) = some (iana, a, bs) → inStep3 s.gen s.m = true → mctpFor s iana → 1 ≤ bs.length → bs.length ≤ 256 →
  Yields (.imageChunk u v w) s fun m => changesOnly [.sh] s.m m ∧ m.sh = { s.m.sh with imageSeen := true, image := m.sh.image } ∧
    (∀ i, i < bs.length → m.sh.image.getD (a + i) 0 = bs.getD i 0) ∧
    ∀ x, (x < a ∨ a + bs.length ≤ x) → m.sh.image.get? x = s.m.sh.image.get? x

/-- The image as it was received. -/
def imageOf (s : State) (n : Nat) : List Byte := (List.range n).map fun i => s.m.sh.image.getD i 0

/-- IMAGE_END (R484) of an image whose CRC fails: IMAGE_STATUS is CRC, every other object stays, and step 4 begins. -/
def imageCrcRow : Prop := ∀ (u v : List Byte) (iana : BitVec 32) (n : Nat) (s : State), imageEndOf (u ++ v) = some (iana, n) →
  inStep3 s.gen s.m = true → mctpFor s iana → 36 ≤ n →
  crc32c ((imageOf s n).take (n - 4)) ≠ ofBytes ((imageOf s n).drop (n - 4)) →
  Yields (.imageEnd u v) s fun m => changesOnly [.regs, .sh, .nis, .timers] s.m m ∧ m.reg s.gen (key 0x1200 3) = 2 * 2 ^ 24 ∧
    startupState s.gen m = 4 ∧ sameRegsBut [key 0x1200 3, startupKey] s.m m

/-- An accepted image (R484): its records are applied one by one, IMAGE_STATUS shows how many were skipped and rejected, and
step 4 begins. -/
def imageEndRow : Prop := ∀ (u v : List Byte) (iana : BitVec 32) (n : Nat) (s : State), imageEndOf (u ++ v) = some (iana, n) →
  inStep3 s.gen s.m = true → mctpFor s iana → 36 ≤ n →
  let bs := imageOf s n
  let word (a : Nat) : Nat := ofBytes ((bs.drop a).take 4)
  crc32c (bs.take (n - 4)) = ofBytes (bs.drop (n - 4)) → word 8 = n → word 0 / 256 = 0x000302 → word 4 = genDigest s.gen →
  let r := loadRecords s.gen (word 12) ((bs.take (n - 4)).drop 32) s.m 0 0
  Yields (.imageEnd u v) s fun m => m.reg s.gen (key 0x1200 3) = min r.2.1 4095 * 4096 + min r.2.2 4095 ∧
    startupState s.gen m = 4 ∧ ∀ k, k ≠ key 0x1200 3 → k ≠ startupKey → m.regs.get? k = r.1.regs.get? k

/-- One record (R484): an absent or non-persistent object's is skipped, one whose value would be refused is rejected, and
neither changes anything. -/
def imageRecordRow : Prop := ∀ (g : Gen) (m : Mach) (k size v : Nat),
  (objOf g k = none → loadRecord g m k size v = (m, .skipped)) ∧
  ∀ o, objOf g k = some o → (persistent k o = false → loadRecord g m k size v = (m, .skipped)) ∧
    (persistent k o = true → (size ≠ o.ty.size ∨ valueOk g m k o v = false) → loadRecord g m k size v = (m, .rejected))

end Sys2Proof.Machine

open Sys2Proof.Machine in
/-- MG_READ, MG_WRITE, MG_INFO, MG_VP_SQUASH, the reserved management commands and BROADCAST_ANSWER at the Shuttle
(R143, R461 to R470). -/
def Obligations.ManagementAccess : Prop :=
  mgStoppedRow ∧ mgReadRow ∧ mgInfoRow ∧ mgWriteRow ∧ mgReadOnlyRow ∧ mgReservedRow ∧ mgMalformedRow ∧ mgBusyRow ∧ mgVpSquashRow ∧ mgDeniedRow ∧
  mgmtRspRow ∧ broadcastAnswerRow

open Sys2Proof.Machine in
/-- MG_REQ, MG_FORWARD_TIMEOUT, SET_ENDPOINT_ID and ENTDAA (R461, R471 to R473). -/
def Obligations.OutOfBand : Prop :=
  messageRow ∧ mgReqReadRow ∧ mgReqForwardRow ∧ mgReqBusyRow ∧ mgForwardTimeoutRow ∧ setEndpointIdRow ∧ entdaaRow

open Sys2Proof.Machine in
/-- R528: GET_VENDOR_DEFINED_MESSAGE_SUPPORT answers with VENDOR_IANA, and a vendor message with another IANA is discarded. -/
def Obligations.VendorMessages : Prop := vendorSupportRow ∧ foreignVendorRow

open Sys2Proof.Machine in
/-- R12: a refused write changes no state and has no side effect. -/
def Obligations.RefusedWrites : Prop := refusedWriteRow ∧ refusedObjRow

open Sys2Proof.Machine in
/-- REGISTER_WRITE and RESTORE_DEFAULTS (R5, R10, R11, R483, R522). -/
def Obligations.DictionaryWrites : Prop :=
  absentObjRow ∧ absentCommandRow ∧ writeOrderRow ∧ stopRequiredRow ∧ registerWriteRow ∧ restoreRouterRow ∧ restoreRefusedRow

open Sys2Proof.Machine in
/-- STORE, IMAGE_ACK, STORE_TIMEOUT, IMAGE_WAIT, IMAGE_CHUNK and IMAGE_END (R480, R481, R484, R485). -/
def Obligations.StoreAndImage : Prop :=
  storeFailsRow ∧ storeSendsRow ∧ imageAckRow ∧ storeTimeoutRow ∧ imageWaitRow ∧ imageChunkRow ∧ imageCrcRow ∧ imageEndRow ∧
  imageRecordRow

namespace Sys2Proof.Machine

open Sys2Proof

/-! ### Functions -/

/-- A command on one unit that is in progress. -/
def oneUnit (sub fid : Nat) : Job := ⟨sub, fid, [[fid]], 0⟩

/-- CMD_STATUS shows command `sub` of a unit running, and only that and START_REFUSAL change of the objects (R477). -/
def jobBegun (sub fid : Nat) (s : State) (m : Mach) : Prop :=
  m.sh = { s.m.sh with job := some (oneUnit sub fid) } ∧ m.reg s.gen cmdStatusKey = 2 ^ 31 + sub * 2 ^ 24 + fid ∧
  sameRegsBut [cmdStatusKey, startRefusalKey] s.m m ∧ m.out = s.m.out ++ [.status 0]

/-- The command ends with a RESULT (R477). -/
def jobDone (sub result fid : Nat) (s : State) (m : Mach) : Prop :=
  m.sh = { s.m.sh with job := none } ∧ objBecomes s.gen cmdStatusKey (sub * 2 ^ 24 + result * 2 ^ 16 + fid) s.m m

/-- STOP (R139, R145, R475) of a RUNNING router: STOPPING, for DRAIN_TIMEOUT of now at most. -/
def stopRouterRow : Prop := ∀ (r : Nat) (s : State), s.gen.hasRouter r = true → r < 256 → s.m.routers.has r = true →
  (s.m.rt s.gen r).fs = .running → (s.m.dom (s.gen.region r)).st = .p0 → s.m.sh.job = none →
  Yields (.stop (0x1000 + r)) s fun m => changesOnly [.regs, .routers, .sh, .timers, .out] s.m m ∧ jobBegun 1 (0x1000 + r) s m ∧
    m.rt s.gen r = { s.m.rt s.gen r with fs := .stopping } ∧ (∀ x, x ≠ r → m.rt s.gen x = s.m.rt s.gen x) ∧
    m.deadline (.drain (0x1000 + r)) = some (s.m.now + usUnits (s.m.reg s.gen (key 0x2000 3)))

/-- STOP (R266, R267) of a RUNNING NI whose ejection FIFOs are empty: STOPPING, for twice NP_TIMEOUT. -/
def stopNiRow : Prop := ∀ (l : Nat) (s : State), s.gen.hasNi l = true → l < 128 → s.m.nis.has l = true →
  (s.m.ni l).fs = .running → (s.m.dom (s.gen.niDom l)).st = .p0 → s.m.sh.job = none →
  (∀ v, v < 5 → (s.m.ni l).ep.eject.getD v [] = []) →
  Yields (.stop (0x3000 + l)) s fun m => changesOnly [.regs, .nis, .sh, .timers, .out] s.m m ∧ jobBegun 1 (0x3000 + l) s m ∧
    m.ni l = { s.m.ni l with fs := .stopping, stopLogged := false } ∧ (∀ j, j ≠ l → m.ni j = s.m.ni j) ∧
    m.deadline (.drain (0x3000 + l)) = some (s.m.now + 2 * npTimeout s.gen s.m l)

/-- A request that waits in an ejection FIFO, no part of it presented. -/
def unpresented (e : EjPkt) : Bool := !e.drop && e.req.isNone && !isResponse e.pkt.hdr.c

/-- STOP of a RUNNING NI, whatever waits (R266): the requests not yet presented leave the ejection FIFOs, the rest stays in order. -/
def stopNiWaitingRow : Prop := ∀ (l : Nat) (s : State), s.gen.hasNi l = true → l < 128 → s.m.nis.has l = true →
  (s.m.ni l).fs = .running → (s.m.dom (s.gen.niDom l)).st = .p0 → s.m.sh.job = none →
  Yields (.stop (0x3000 + l)) s fun m => (m.ni l).fs = .stopping ∧
    ∀ v, v < 5 → (m.ni l).ep.eject.getD v [] = ((s.m.ni l).ep.eject.getD v []).filter fun e => !unpresented e

/-- STOP of a RUNNING Ndesil port whose link is in no low power state. -/
def stopPortRow : Prop := ∀ (p : Nat) (s : State), s.gen.hasPort p = true → p < 8 → s.m.ports.has p = true →
  (s.m.port p).fs = .running → (s.m.port p).pwr = 0 → s.m.sh.job = none →
  Yields (.stop (0x5000 + p)) s fun m => changesOnly [.regs, .ports, .sh, .out] s.m m ∧ jobBegun 1 (0x5000 + p) s m ∧
    m.port p = { s.m.port p with fs := .stopping } ∧ ∀ q, q ≠ p → m.port q = s.m.port q

/-- R474, R476: STOP and START of a reserved KIND, of a unit that was not generated, or while a command runs, are refused. -/
def commandRefusedRow : Prop := ∀ (fid : Nat) (s : State),
  let refused (c : Nat) (m : Mach) : Prop := m = { s.m with out := s.m.out ++ [.status c] }
  ((fid / 4096 = 0 ∨ 8 ≤ fid / 4096) → Yields (.stop fid) s (refused 4) ∧ Yields (.start fid) s (refused 4)) ∧
  (1 ≤ fid / 4096 → fid / 4096 < 8 → fidPresent s.gen fid = false →
    Yields (.stop fid) s (refused 1) ∧ Yields (.start fid) s (refused 1)) ∧
  (1 ≤ fid / 4096 → fid / 4096 < 8 → fidPresent s.gen fid = true → s.m.sh.job ≠ none →
    Yields (.stop fid) s (refused 6) ∧ Yields (.start fid) s (refused 6))

/-- START (R475, R521) of a STOPPED NI with a live ejection link: STARTING, its accepted settings in force. -/
def startNiRow : Prop := ∀ (l : Nat) (s : State), s.gen.hasNi l = true → l < 128 → s.m.nis.has l = true →
  (s.m.ni l).fs = .stopped → (s.m.ni l).rx.dead = false → (s.m.dom (s.gen.niDom l)).st = .p0 → s.m.sh.job = none →
  Yields (.start (0x3000 + l)) s fun m => changesOnly [.regs, .inForce, .nis, .sh, .out] s.m m ∧
    jobBegun 2 (0x3000 + l) s m ∧ m.reg s.gen startRefusalKey = 0 ∧
    m.ni l = { s.m.ni l with fs := .starting } ∧ (∀ j, j ≠ l → m.ni j = s.m.ni j) ∧
    ∀ k, ownerOf s.gen k = some (.func (0x3000 + l)) → m.cfg s.gen k = m.reg s.gen k

/-- START of a STOPPING router (R140, R475): RUNNING again with nothing lost, its drain timeout ended, and the command is DONE. -/
def startStoppingRow : Prop := ∀ (r : Nat) (s : State), s.gen.hasRouter r = true → r < 256 → s.m.routers.has r = true →
  (s.m.rt s.gen r).fs = .stopping → (s.m.dom (s.gen.region r)).st = .p0 → s.m.sh.job = none →
  Yields (.start (0x1000 + r)) s fun m => changesOnly [.regs, .routers, .timers, .out] s.m m ∧
    m.deadline (.drain (0x1000 + r)) = none ∧
    m.rt s.gen r = { s.m.rt s.gen r with fs := .running } ∧ (∀ x, x ≠ r → m.rt s.gen x = s.m.rt s.gen x) ∧
    m.reg s.gen cmdStatusKey = 2 * 2 ^ 24 + (0x1000 + r) ∧ m.reg s.gen startRefusalKey = 0 ∧
    sameRegsBut [cmdStatusKey, startRefusalKey] s.m m

/-- START of the routing function that a check of R478 refuses. -/
def startRefusedRow : Prop := ∀ (code entry : Nat) (s : State), s.m.sh.job = none →
  startRefusal s.gen s.m 0x2000 = some (code, entry) →
  Yields (.start 0x2000) s fun m => changesOnly [.regs, .out] s.m m ∧ m.out = s.m.out ++ [.status 0] ∧
    m.reg s.gen cmdStatusKey = 2 * 2 ^ 24 + 2 * 2 ^ 16 + 0x2000 ∧ m.reg s.gen startRefusalKey = code * 2 ^ 24 + entry % 65536 ∧
    sameRegsBut [cmdStatusKey, startRefusalKey] s.m m

/-- ROUTER_STOPPED (R139): an empty STOPPING router is STOPPED, and its STOP is DONE. -/
def routerStoppedRow : Prop := ∀ (r : Nat) (s : State), s.gen.hasRouter r = true → r < 256 → s.m.routers.has r = true →
  (s.m.rt s.gen r).fs = .stopping → routerEmpty s.gen s.m r = true → (s.m.dom (s.gen.region r)).st = .p0 →
  s.m.sh.job = some (oneUnit 1 (0x1000 + r)) →
  Yields (.routerStopped r) s fun m => changesOnly [.regs, .routers, .sh, .timers] s.m m ∧
    m.deadline (.drain (0x1000 + r)) = none ∧ jobDone 1 0 (0x1000 + r) s m ∧
    m.rt s.gen r = { s.m.rt s.gen r with fs := .stopped } ∧ ∀ x, x ≠ r → m.rt s.gen x = s.m.rt s.gen x

/-- DRAIN_TIMEOUT (R140): RESULT DRAIN_TIMEOUT once the router has been STOPPING for that long; it stays STOPPING. -/
def drainTimeoutRow : Prop := ∀ (r d : Nat) (s : State), s.gen.hasRouter r = true → r < 256 → (s.m.rt s.gen r).fs = .stopping →
  (s.m.dom (s.gen.region r)).st = .p0 → s.m.deadline (.drain (0x1000 + r)) = some d → s.m.sh.job = some (oneUnit 1 (0x1000 + r)) →
  Yields (.drainTimeout r) s fun m => changesOnly [.regs, .sh, .time, .timers] s.m m ∧ jobDone 1 1 (0x1000 + r) s m ∧
    m.time = (s.m.advanceTo d).time ∧ m.deadline (.drain (0x1000 + r)) = none

/-- ROUTER_RUNNING (R115, R475): a STARTING router runs; after an allocator fault a passed self-test asks for iterative mode. -/
def routerRunningRow : Prop := ∀ (r : Nat) (t : Bool) (s : State), s.gen.hasRouter r = true → s.m.routers.has r = true →
  (s.m.rt s.gen r).fs = .starting → s.m.sh.job = none →
  Yields (.routerRunning r t) s fun m => (m.rt s.gen r).fs = .running ∧
    ((s.m.rt s.gen r).allocFault = true → t = true → (m.rt s.gen r).want = some false ∧ (m.rt s.gen r).allocFault = false) ∧
    ((s.m.rt s.gen r).allocFault = true → t = false →
      (m.rt s.gen r).want = (s.m.rt s.gen r).want ∧ (m.rt s.gen r).allocFault = true)

/-- NI_STOPPED (R267). -/
def niStoppedRow : Prop := ∀ (l : Nat) (s : State), s.gen.hasNi l = true → l < 128 → s.m.nis.has l = true →
  (s.m.ni l).fs = .stopping → niEmpty (s.m.ni l) = true → (s.m.dom (s.gen.niDom l)).st = .p0 →
  s.m.sh.job = some (oneUnit 1 (0x3000 + l)) →
  Yields (.niStopped l) s fun m => changesOnly [.regs, .nis, .sh, .timers] s.m m ∧
    m.deadline (.drain (0x3000 + l)) = none ∧ jobDone 1 0 (0x3000 + l) s m ∧
    m.ni l = { s.m.ni l with fs := .stopped } ∧ ∀ j, j ≠ l → m.ni j = s.m.ni j

/-- NI_DRAIN_TIMEOUT (R267): twice NP_TIMEOUT has passed; the NI stays STOPPING. -/
def niDrainTimeoutRow : Prop := ∀ (l d : Nat) (s : State), s.gen.hasNi l = true → l < 128 → (s.m.ni l).fs = .stopping →
  (s.m.dom (s.gen.niDom l)).st = .p0 → s.m.deadline (.drain (0x3000 + l)) = some d → s.m.sh.job = some (oneUnit 1 (0x3000 + l)) →
  Yields (.niDrainTimeout l) s fun m => changesOnly [.regs, .sh, .time, .timers] s.m m ∧ jobDone 1 1 (0x3000 + l) s m ∧
    m.time = (s.m.advanceTo d).time ∧ m.deadline (.drain (0x3000 + l)) = none

/-- NI_RUNNING (R267) with an OPEN port: the agent holds credit for all the free space of channels 0 to 6 again. -/
def niRunningRow : Prop := ∀ (l : Nat) (s : State), s.gen.hasNi l = true → s.m.nis.has l = true → (s.m.ni l).fs = .starting →
  (s.m.ni l).ep.st = .opened → s.m.sh.isolated = false → s.m.sh.job = none →
  Yields (.niRunning l) s fun m => changesOnly [.nis, .out] s.m m ∧ (m.ni l).fs = .running ∧ (∀ j, j ≠ l → m.ni j = s.m.ni j) ∧
    (m.ni l).tx = (s.m.ni l).tx ∧ (m.ni l).tab = (s.m.ni l).tab ∧
    ∀ ch, ch < 7 → (m.ni l).ep.inCr.getD ch 0 =
      max ((s.m.ni l).ep.inCr.getD ch 0) (ingressCap ch - ingressOcc (s.m.ni l).ep ch)

/-- PORT_STOPPED (R391). -/
def portStoppedRow : Prop := ∀ (p : Nat) (s : State), s.gen.hasPort p = true → p < 8 → s.m.ports.has p = true →
  (s.m.port p).fs = .stopping → portEmpty s.m p = true → s.m.sh.job = some (oneUnit 1 (0x5000 + p)) →
  Yields (.portStopped p) s fun m => changesOnly [.regs, .ports, .sh] s.m m ∧ jobDone 1 0 (0x5000 + p) s m ∧
    m.port p = { s.m.port p with fs := .stopped } ∧ ∀ q, q ≠ p → m.port q = s.m.port q

/-! ### The pricking -/

/-- The shadow bank of `a` is armed in `m` for slot A (R189, R190, R193): the active bank stays, every entry is taken as it stands,
every descriptor with the fields the Shuttle computes, and PRK_REFUSAL reads 0. -/
def bankArmed (g : Gen) (a : Mach) (slot : Nat) (late : Bool) (m : Mach) : Prop :=
  m.prk = { a.prk with st := if a.prk.st = .active then .activeArmed else .armed, armed := m.prk.armed,
                       armedPeriod := a.reg g (key 0x3100 2), slot := slot, asking := false } ∧
  (∀ k, key 0x3800 0 ≤ k → m.prk.armed.get? k = (shadowBank a).get? k) ∧
  ((a.regs.map (·.1)).Nodup → ∀ d ∈ (armView g a).ds, m.prk.armed.get? d.key = some (withShuttleFields (armView g a) d)) ∧
  m.reg g (key 0x3100 8) = 0 ∧ m.reg g (key 0x3100 7) = slot * 32768 ∧ (late = true → bit (m.reg g (key 0x3100 6)) 0 = true)

/-- No neighbour can answer a digest: no link is UP. -/
abbrev noNeighbour (s : State) : Prop := ∀ q ∈ s.gen.ports, (s.m.port q.p).link ≠ .up

/-- ARM (R190 to R193) without neighbours, which passes every check: the shadow bank is armed for slot A. -/
def armRow : Prop := ∀ (a : Nat) (late : Bool) (s : State), noNeighbour s → armRefusal (armView s.gen s.m) = none →
  checkDigest (armView s.gen s.m) = none →
  activationSlot s.gen s.m (s.m.reg s.gen (key 0x3100 2)) = some (a, late) →
  Yields .arm s fun m => bankArmed s.gen s.m a late m ∧ m.time = s.m.time ∧ m.out.getLast? = some (.status 0)

/-- ARM with a neighbour (R192): it asks every neighbour for its digest and waits; no bank is armed yet. -/
def armAsksRow : Prop := ∀ s : State, (∃ q ∈ s.gen.ports, (s.m.port q.p).link = .up) → armRefusal (armView s.gen s.m) = none →
  Yields .arm s fun m => changesOnly [.ports, .prk, .out] s.m m ∧ m.prk = { s.m.prk with asking := true } ∧
    m.out.getLast? = some (.status 0) ∧
    ∀ q ∈ s.gen.ports, (s.m.port q.p).link = .up → (m.port q.p).asked = true ∧ (m.port q.p).digest = none ∧
      tells s.gen m q.p 0x05 (toBytes (digestOf (xingPairs (armView s.gen s.m) q.p false)).toNat 4)

/-- The entries and descriptors that ARM accepts (R164, R190): every length, slot and identity is in its range. -/
def armSoundRow : Prop := ∀ v : ArmView, armRefusal v = none → v.m.time.st = .locked ∧
  (∀ x ∈ v.es, 1 ≤ x.e.len ∧ x.e.len ≤ 5 ∧ x.e.start < v.p ∧ x.e.id ≠ 0 ∧ x.e.inPort ≠ x.out) ∧
  ∀ d ∈ v.ds, d.vn ∈ [0, 2, 3, 4] ∧ ∀ id ∈ d.ids, ∃ x ∈ v.es, x.e.id = id ∧ x.r = v.g.niRouter d.l

/-- R193: the activation slot is a common boundary of the active and the armed period, at ARM_AT or later, and at least the
arming lead ahead. -/
def activationSlotRow : Prop := ∀ (g : Gen) (m : Mach) (p a : Nat) (late : Bool), 1 ≤ p → activationSlot g m p = some (a, late) →
  p ∣ a ∧ m.prk.period ∣ a ∨ m.prk.period = 0 ∧ p ∣ a

/-- R193: the slot is never closer than the arming lead. -/
def activationLeadRow : Prop := ∀ (g : Gen) (m : Mach) (p a : Nat) (late : Bool), 1 ≤ p → activationSlot g m p = some (a, late) →
  m.time.sc + armingLead ≤ a ∧ ceilDiv (m.reg g (key 0x3100 4)) 32768 ≤ a ∧ (late = true → m.reg g (key 0x3100 5) ≠ 1)

/-- ARM that a check of R190 refuses before the digests are exchanged: PRK_REFUSAL tells which, and no bank is armed. -/
def armRefusedRow : Prop := ∀ (w : Nat) (s : State), armRefusal (armView s.gen s.m) = some w →
  Yields .arm s fun m => changesOnly [.regs, .prk, .out] s.m m ∧ objBecomes s.gen (key 0x3100 8) w s.m m ∧
    m.prk = { s.m.prk with asking := false } ∧ m.out = s.m.out ++ [.status 0]

/-- R190, R191: the first two checks and their codes. -/
def firstChecksRow : Prop := ∀ v : ArmView,
  (v.m.prk.st = .armed ∨ v.m.prk.st = .activeArmed → armRefusal v = some (0x0E * 2 ^ 24)) ∧
  (v.m.prk.st = .idle ∨ v.m.prk.st = .active → v.m.time.st ≠ .locked → armRefusal v = some (0x0B * 2 ^ 24))

/-- R189, R194: the armed bank of `a` is the active one in `m`, and the shadow bank is a copy of it; an empty bank ends class 0. -/
def switched (g : Gen) (a m : Mach) : Prop :=
  m.prk = { a.prk with st := if bankEmpty a.prk.armed then .idle else .active, active := a.prk.armed,
                       period := if bankEmpty a.prk.armed then 0 else a.prk.armedPeriod, armed := [], armedPeriod := 0,
                       stopping := a.prk.stopping && !bankEmpty a.prk.armed, asking := m.prk.asking } ∧
  (∀ k, isPrkKey k = true → m.regs.get? k = a.prk.armed.get? k) ∧ m.reg g (key 0x3100 3) = m.prk.period

/-- Nothing but entries and descriptors stands in the armed bank, each once. -/
abbrev bankSound (m : Mach) : Prop := (m.prk.armed.map (·.1)).Nodup ∧ ∀ x ∈ m.prk.armed, isPrkKey x.1 = true

/-- DISARM (R196): ARMED to IDLE, ACTIVE_ARMED to ACTIVE, the armed bank and its holds gone, and nothing where none is armed; once
A has passed, the switch of slot A instead. -/
def disarmRow : Prop := ∀ s : State, s.m.sh.job = none →
  ((s.m.prk.st = .idle ∨ s.m.prk.st = .active) → Yields .disarm s fun m => changesOnly [.prk, .out] s.m m ∧
    m.out = s.m.out ++ [.status 0] ∧ m.prk = { s.m.prk with asking := false }) ∧
  ((s.m.prk.st = .armed ∨ s.m.prk.st = .activeArmed) → s.m.time.sc < s.m.prk.slot →
    Yields .disarm s fun m => changesOnly [.prk, .out] s.m m ∧ m.out = s.m.out ++ [.status 0] ∧
      m.prk = { s.m.prk with st := if s.m.prk.st = .armed then .idle else .active, armed := [], armedPeriod := 0, stopping := false,
                             asking := false }) ∧
  (plainGen s.gen → (s.m.prk.st = .armed ∨ s.m.prk.st = .activeArmed) → s.m.prk.slot ≤ s.m.time.sc → bankSound s.m →
    Yields .disarm s fun m => switched s.gen s.m m)

/-- PRICKING_ACTIVATION (R189, R194): time goes on to slot A, and the armed bank is active. -/
def activationRow : Prop := ∀ s : State, plainGen s.gen → s.m.sh.job = none →
  (s.m.prk.st = .armed ∨ s.m.prk.st = .activeArmed) → bankSound s.m →
  Yields .prickingActivation s fun m => switched s.gen s.m m ∧
    m.time = (alignSc { s.m.pass (s.m.prk.slot - s.m.time.sc) with prk := m.prk }).time

/-- PRICKING_ACTIVATION with no bank armed: slot A is not awaited. -/
def noActivationRow : Prop := ∀ s : State, (s.m.prk.st = .idle ∨ s.m.prk.st = .active) →
  Yields .prickingActivation s fun m => m = s.m

/-- What a PRK_DIGEST leaves at its port. -/
def digestKept (s : State) (p : Nat) (d : BitVec 32) (m : Mach) : Prop :=
  (m.port p).digest = some d ∧ (m.port p).asked = false ∧ ∀ q, q ≠ p → m.port q = s.m.port q

/-- PRK_DIGEST (R192) where no ARM waits: the neighbour's digest is kept; one that is no answer is answered with that of the shadow
bank. One whose CRC16 fails is dropped (R397). -/
def prkDigestRow : Prop := ∀ (p : Nat) (d : BitVec 32) (s : State), s.gen.hasPort p = true → s.m.ports.has p = true →
  (s.m.prk.asking = false → Yields (.prkDigest ⟨p, sbCrc 0x05 (toBytes d.toNat 4)⟩ d) s fun m =>
    changesOnly [.ports, .out] s.m m ∧ digestKept s p d m ∧
    (if (s.m.port p).asked then m.out = s.m.out
     else tellsOnly s.gen s.m m p 0x05 (toBytes (digestOf (xingPairs (armView s.gen s.m) p false)).toNat 4))) ∧
  (∀ crc, crc ≠ sbCrc 0x05 (toBytes d.toNat 4) → Yields (.prkDigest ⟨p, crc⟩ d) s fun m => m = s.m)

/-- PRK_DIGEST that is the last answer an ARM waits for (R190 to R193): the digests are compared, and the ARM ends, with
XING_MISMATCH where one differs, or with the shadow bank armed. -/
def lastDigestRow : Prop := ∀ (p : Nat) (d : BitVec 32) (s : State), s.gen.hasPort p = true → s.m.ports.has p = true →
  s.m.prk.asking = true → (s.m.port p).asked = true →
  (∀ q ∈ s.gen.ports, q.p ≠ p → (s.m.port q.p).link = .up → (s.m.port q.p).asked = false) →
  let u := s.m.updP p fun x => { x with digest := some d, asked := false }
  armRefusal (armView s.gen u) = none →
  (∀ w, checkDigest (armView s.gen u) = some w → Yields (.prkDigest ⟨p, sbCrc 0x05 (toBytes d.toNat 4)⟩ d) s fun m =>
    changesOnly [.regs, .ports, .prk] s.m m ∧ digestKept s p d m ∧ objBecomes s.gen (key 0x3100 8) w s.m m ∧
      m.prk = { s.m.prk with asking := false }) ∧
  (∀ a late, checkDigest (armView s.gen u) = none → activationSlot s.gen u (s.m.reg s.gen (key 0x3100 2)) = some (a, late) →
    Yields (.prkDigest ⟨p, sbCrc 0x05 (toBytes d.toNat 4)⟩ d) s fun m => bankArmed s.gen u a late m ∧ m.time = s.m.time)

/-! ### Logs, the tick and upkeep -/

/-- LOG_CLEAR (R454, R457): the records and counts, and the log's ERR_PEND bit, show only what arrived in the same ao cycle, which is
applied after it; an NI's log clears FAULT_FIRST of its engines (R348). -/
def logClearRow : Prop := ∀ (idx : Nat) (s : State), plainGen s.gen → hasLog s.gen idx = true → s.m.sh.isolated = false →
  let c := s.m.logNow s.gen idx
  Yields (.logClear idx) s fun m => changesOnly [.regs, .logs, .out] s.m m ∧ m.out = s.m.out ++ [.status 0] ∧
    (m.reg s.gen (key idx 1), m.reg s.gen (key idx 2)) = c.recs.foldl placeRecord (0, 0) ∧
    (∀ v, v < 4 → m.reg s.gen (key idx (3 + v)) = c.cnts.getD v 0) ∧
    (∀ k b, pendBit idx = some (k, b) → bit (m.reg s.gen k) b = c.cnts.any fun x => x != 0) ∧
    ∀ i, i < s.gen.engineCount → idx = 0x9200 + (s.gen.engHost i).1 → (s.gen.engHost i).1 < 128 → m.reg s.gen (engKey i 5) = 0

/-- LOG_CLEAR where nothing arrived in that cycle: all reads 0. A log of an isolated instance stays (R448). -/
def logEmptyRow : Prop := ∀ (idx : Nat) (s : State), plainGen s.gen → hasLog s.gen idx = true →
  (s.m.sh.isolated = false → (s.m.log idx).now.cycle ≠ s.m.aoCycle →
    Yields (.logClear idx) s fun m => changesOnly [.regs, .logs, .out] s.m m ∧ m.out = s.m.out ++ [.status 0] ∧
      (∀ i, 1 ≤ i → i ≤ 6 → m.reg s.gen (key idx i) = 0) ∧ ∀ k b, pendBit idx = some (k, b) → bit (m.reg s.gen k) b = false) ∧
  (s.m.sh.isolated = true → Yields (.logClear idx) s fun m => m = { s.m with out := s.m.out ++ [.status 0] })

/-- LOG_EVENT_ARRIVAL (R454, R455, R527) of one event of severity σ at an empty log, the first in its ao cycle: it is the first
record, its count goes up, and ERR_PEND and ERR_PENDING show it. -/
def logArrivalRow : Prop := ∀ (idx w sev k b : Nat) (l : LogSt) (s : State), s.m.sh.isolated = false →
  s.m.logs.get? idx = some l → l.waiting = some w → pendBit idx = some (k, b) → l.applied.length = 4 → sev < 4 →
  l.counts = l.applied.set sev (l.applied.getD sev 0 + 1) → l.now.cycle ≠ s.m.aoCycle →
  (∀ d, logDomain s.gen idx = some d → d < 128) →
  s.m.reg s.gen (key idx 1) = 0 → s.m.reg s.gen (key idx 7) % 4 ≤ w / 2 ^ 126 →
  Yields (.logEventArrival [idx]) s fun m => changesOnly [.regs, .hw, .nis, .logs, .fresh] s.m m ∧
    m.logs.get? idx = some ⟨none, l.counts, l.counts, ⟨s.m.aoCycle, (0, s.m.reg s.gen (key idx 2)), [w], [0, 0, 0, 0].set sev 1⟩⟩ ∧
    m.reg s.gen (key idx 1) = w ∧ m.reg s.gen (key idx (3 + sev)) = capped s.gen s.m (key idx (3 + sev)) 1 ∧
    bit (m.reg s.gen k) b = true ∧ bit (m.reg s.gen (key 0x9800 1)) sev = true

/-- SHUTTLE_TICK (R385, R402, R441, R451): time goes on to the next control tick, the tick counts, every NI records PV_LOCAL, every
window begins anew, and the error settings take effect. -/
def shuttleTickRow : Prop := ∀ s : State,
  Yields (.shuttleTick [] false) s fun m => changesOnly [.regs, .inForce, .time, .sh, .routers, .nis, .ports] s.m m ∧
    m.time = (s.m.advanceTo (s.m.now + s.m.ticksOn 1)).time ∧
    m.sh = { s.m.sh with ticks := s.m.sh.ticks + 1 } ∧
    (∀ l, s.gen.hasNi l = true → s.m.nis.has l = true →
      (m.ni l).pvTicks.head? = some (s.m.reg s.gen (niKey l 0x40)) ∧ (m.ni l).rx.resets = 0) ∧
    (∀ r ∈ s.gen.routers, s.m.routers.has r = true → ∀ x ∈ (m.rt s.gen r).ins, x.2.resets = 0) ∧
    (∀ p, s.gen.hasPort p = true → (m.port p).crcFails = 0) ∧
    ∀ k, k / 256 = 0x9800 → m.cfg s.gen k = m.reg s.gen k

/-- The next control tick (log 164): a multiple of 1 ms on the slot clock, within 1 ms from now. -/
def nextTickRow : Prop := ∀ m : Mach, tickUnits ∣ m.now + m.ticksOn 1 ∧ m.now < m.now + m.ticksOn 1 ∧ m.ticksOn 1 ≤ tickUnits

/-- SHUTTLE_TICK that measures a clock more than 2 % off DOMAIN_FREQ (R402): XING_STATUS.FREQ_MISMATCH is set, and the event counts
at the domain's log. -/
def clockOffRow : Prop := ∀ (d f : Nat) (s : State), s.gen.hasDom d = true →
  (2 * s.m.cfg s.gen (domKey d 2) < 100 * (s.m.cfg s.gen (domKey d 2) - f) ∨
    2 * s.m.cfg s.gen (domKey d 2) < 100 * (f - s.m.cfg s.gen (domKey d 2))) →
  Yields (.shuttleTick [(d, f)] false) s fun m => bit (m.reg s.gen (domKey d 7)) 3 = true ∧
    (s.m.sh.isolated = false → d < 128 → ∃ w, (m.log (logD d)).waiting = some w ∧
      (m.log (logD d)).counts = (s.m.log (logD d)).counts.set (severity 0x14) ((s.m.log (logD d)).counts.getD (severity 0x14) 0 + 1))

/-- SHUTTLE_TICK that finds the Shuttle's store broken (R448): the instance is isolated. -/
def storeErrorRow : Prop := ∀ s : State, Yields (.shuttleTick [] true) s fun m => m.sh.isolated = true

/-- TABLE_REPAIR (R446): that entry is good again, and no other changes. -/
def tableRepairRow : Prop := ∀ (e : TabErr) (s : State),
  Yields (.tableRepair e) s fun m => changesOnly [.sh] s.m m ∧ m.sh = { s.m.sh with badEntries := m.sh.badEntries } ∧
    e ∉ m.sh.badEntries ∧ ∀ x, x ≠ e → (x ∈ m.sh.badEntries ↔ x ∈ s.m.sh.badEntries)

/-- AGE_MEASURE (R513, R514) in P0: at the next 1,000th Shuttle tick, by log 164 a multiple of 1 s of the slot clock, DEGRADE is taken, WARN is set from AGE_WARN on, and its first setting counts. -/
def ageMeasureRow : Prop := ∀ (d v : Nat) (s : State), s.gen.hasDom d = true → 1 ≤ d → d < 128 → v < 65536 →
  (s.m.dom d).st = .p0 →
  let was := bit (s.m.reg s.gen (key 0xA800 d)) 16
  let reached : Bool := s.m.reg s.gen (key 0xA801 1) ≤ v
  Yields (.ageMeasure d v) s fun m => changesOnly [.regs, .time, .timers] s.m m ∧
    m.time = (s.m.advanceTo (ageDue s.m d)).time ∧ m.deadline (.age d) = some (m.now + ageUnits) ∧
    m.reg s.gen (key 0xA800 d) = v + (if was = true ∨ reached = true then 65536 else 0) ∧
    m.reg s.gen (key 0xA801 2) = (if reached = true ∧ was = false then capped s.gen s.m (key 0xA801 2) 1 else s.m.reg s.gen (key 0xA801 2)) ∧
    sameRegsBut [key 0xA800 d, key 0xA801 2] s.m m

/-! ### Reset and start-up -/

/-- POR_ASSERT (R237, R369, R485, R490): every register reads its default and every unit is as after reset; the levels of the
agents, the SerDes and the lifecycle input stay. -/
def porAssertRow : Prop := ∀ s : State,
  Yields .porAssert s fun m => m.regs = [] ∧ m.inForce = [] ∧ m.time = TimeSt.reset ∧ m.prk = Prk.reset ∧ m.logs = [] ∧ m.wires = [] ∧ m.timers = [] ∧
    m.sh = { Shuttle.reset with lifecycle := s.m.sh.lifecycle } ∧ m.routers = (Mach.resetOf s.gen).routers ∧
    m.engines = (Mach.resetOf s.gen).engines ∧ m.domains = (Mach.resetOf s.gen).domains ∧
    (∀ l, s.gen.hasNi l = true → m.ni l = { Ni.reset with
      ep := { Ep.reset with rdy := (s.m.ni l).ep.rdy }, guard := { Guard.reset with open_ := s.m.lifecycleOpen } }) ∧
    (∀ p, s.gen.hasPort p = true → m.port p = { Port.reset with serdes := (s.m.port p).serdes }) ∧ fabReady s.gen m = false

/-- POR_RELEASE (R485): step 1. -/
def porReleaseRow : Prop := ∀ s : State, s.m.sh.porN = false →
  Yields .porRelease s fun m => changesOnly [.regs, .sh] s.m m ∧ objBecomes s.gen startupKey 1 s.m m ∧
    m.sh = { s.m.sh with porN := true, t0 := s.m.now, stepAt := s.m.now }

/-- Start-up goes on at step n. -/
abbrev atStep (s : State) (n : Nat) : Prop :=
  s.m.sh.porN = true ∧ s.m.sh.halted = false ∧ s.m.sh.job = none ∧ startupState s.gen s.m = n

/-- STARTUP_STEP (R485) from step 1: 1,000 ao cycles after hy_por_n rose. -/
def startup1Row : Prop := ∀ s : State, atStep s 1 →
  Yields .startupStep s fun m => changesOnly [.regs, .sh, .time] s.m m ∧ objBecomes s.gen startupKey 2 s.m m ∧
    s.m.sh.t0 + usUnits 40 ≤ m.now

/-- Step 3 begins, and IMAGE_WAIT with it. -/
def startup2Row : Prop := ∀ s : State, atStep s 2 →
  Yields .startupStep s fun m => changesOnly [.regs, .sh, .timers] s.m m ∧ objBecomes s.gen startupKey 3 s.m m ∧
    m.deadline .image = some (s.m.now + usUnits (1000 * s.m.reg s.gen (key 0x1100 6)))

/-- Step 6 (R26): with an identity assigned start-up goes on, at once where the instance is master or has an upstream; that it goes
on without one 300 µs after the step began is the model's (log 39). Without an identity it halts there with code 4. -/
def startup6Row : Prop := ∀ s : State, atStep s 6 →
  (unassigned s.gen s.m = false → Yields .startupStep s fun m => changesOnly [.regs, .sh, .time] s.m m ∧
    objBecomes s.gen startupKey 7 s.m m ∧
    m.time = (if isMaster s.gen s.m ∨ s.m.time.upstream ≠ none then s.m.time
      else (s.m.advanceTo (s.m.sh.stepAt + usUnits 300)).time)) ∧
  (unassigned s.gen s.m = true → Yields .startupStep s fun m => changesOnly [.regs, .sh] s.m m ∧
    objBecomes s.gen (key 0x1200 2) (6 * 2 ^ 24 + 4 * 2 ^ 16 + s.m.node s.gen % 65536) s.m m ∧
    m.sh = { s.m.sh with halted := true })

/-- Step 7 (R478, R488): a routing table that a check refuses halts start-up there. -/
def startup7Row : Prop := ∀ (code entry : Nat) (s : State), atStep s 7 → routingRefusal s.gen s.m = some (code, entry) →
  Yields .startupStep s fun m => changesOnly [.regs, .sh] s.m m ∧
    objBecomes s.gen (key 0x1200 2) (7 * 2 ^ 24 + code * 2 ^ 16 + entry % 65536) s.m m ∧ m.sh = { s.m.sh with halted := true }

/-- Step 9 ends (R485): READY, and STARTUP_TIME is the time since hy_por_n rose in µs. -/
def startup9Row : Prop := ∀ s : State, atStep s 9 →
  Yields .startupStep s fun m => startupState s.gen m = 10 ∧ m.reg s.gen (key 0x1200 4) = (m.now - s.m.sh.t0) / usUnits 1 ∧
    readyAt s.gen s.m ≤ m.now ∧ (s.m.sh.isolated = false → fabReady s.gen m = true)

/-! ### Test access (R517, R518) -/

/-- The wrapper holds instruction n; nothing of the machine changes but what the row says. -/
def wrapperHolds (n : Nat) (a b : Mach) : Prop := b.sh = { a.sh with wrapper := n }

def wsExtestRow : Prop := ∀ s : State, s.m.sh.wrapper < 2 →
  Yields .wsExtest s fun m => changesOnly [.sh] s.m m ∧ wrapperHolds 1 s.m m

def wsIntestRow : Prop := ∀ s : State, s.m.sh.wrapper < 2 → testable s.gen s.m = true →
  Yields .wsIntest s fun m => changesOnly [.sh] s.m m ∧ wrapperHolds 2 s.m m

/-- HY_MBIST: one report per unit, good or bad. -/
def hyMbistRow : Prop := ∀ s : State, s.m.sh.wrapper < 2 → testable s.gen s.m = true →
  Yields .hyMbist s fun m => changesOnly [.sh, .fresh, .out] s.m m ∧ wrapperHolds 3 s.m m ∧
    ∃ os, m.out = s.m.out ++ os ∧ os.length = (testedUnits s.gen).length ∧
      ∀ o ∈ os, ∃ u v, u ∈ testedUnits s.gen ∧ v ≤ 1 ∧ o = .test u v

/-- HY_FABRIC_BIST: every router in cyclic mode with CAUSE 1. -/
def hyFabricBistRow : Prop := ∀ s : State, s.m.sh.wrapper < 2 → testable s.gen s.m = true →
  Yields .hyFabricBist s fun m => changesOnly [.sh, .routers] s.m m ∧ wrapperHolds 4 s.m m ∧
    ∀ r ∈ s.gen.routers, s.m.routers.has r = true → (m.rt s.gen r).cyclic = true ∧ (m.rt s.gen r).cause = 1

/-- HY_MEM_READ (R518): the guard regions, scratch, instruction stores and the dictionary store read zeros unless
hy_lifecycle reads OPEN. The numbers of the memories are the model's (log 42). -/
def hyMemReadRow : Prop := ∀ (mem addr v : Nat) (s : State), s.m.sh.wrapper < 2 → testable s.gen s.m = true →
  protectedMem s.gen s.m mem addr = some v →
  Yields (.hyMemRead mem addr) s fun m => changesOnly [.sh, .out] s.m m ∧ wrapperHolds 5 s.m m ∧
    m.out = s.m.out ++ [.test (mem * 2 ^ 32 + addr) (if s.m.sh.lifecycle = 0xA then v else 0)]

/-- R517: outside reset with a function that is not STOPPED, these instructions take no effect. -/
def testRefusedRow : Prop := ∀ s : State, testable s.gen s.m = false →
  (∀ i ∈ [Instr.wsIntest, .hyMbist, .hyFabricBist], Yields i s fun m => m = s.m)

end Sys2Proof.Machine

open Sys2Proof.Machine in
/-- STOP and START (R139, R266, R267, R474 to R478, R521). -/
def Obligations.StopAndStart : Prop :=
  stopRouterRow ∧ stopNiRow ∧ stopNiWaitingRow ∧ stopPortRow ∧ commandRefusedRow ∧ startNiRow ∧ startStoppingRow ∧ startRefusedRow

open Sys2Proof.Machine in
/-- ROUTER_STOPPED, DRAIN_TIMEOUT, ROUTER_RUNNING, NI_STOPPED, NI_DRAIN_TIMEOUT, NI_RUNNING and PORT_STOPPED (R115, R139,
R140, R267, R391). -/
def Obligations.FunctionEnds : Prop :=
  routerStoppedRow ∧ drainTimeoutRow ∧ routerRunningRow ∧ niStoppedRow ∧ niDrainTimeoutRow ∧ niRunningRow ∧ portStoppedRow

open Sys2Proof.Machine in
/-- ARM, DISARM, PRICKING_ACTIVATION and PRK_DIGEST (R189 to R196). -/
def Obligations.PrickingRows : Prop :=
  armRow ∧ armAsksRow ∧ armSoundRow ∧ activationSlotRow ∧ activationLeadRow ∧ armRefusedRow ∧ firstChecksRow ∧ disarmRow ∧
  activationRow ∧ noActivationRow ∧ prkDigestRow ∧ lastDigestRow

open Sys2Proof.Machine in
/-- LOG_CLEAR, LOG_EVENT_ARRIVAL, SHUTTLE_TICK, TABLE_REPAIR and AGE_MEASURE (R402, R446, R448, R454, R455, R513, R514, R527). -/
def Obligations.Upkeep : Prop :=
  logClearRow ∧ logEmptyRow ∧ logArrivalRow ∧ shuttleTickRow ∧ nextTickRow ∧ clockOffRow ∧ storeErrorRow ∧ tableRepairRow ∧ ageMeasureRow

open Sys2Proof.Machine in
/-- POR_ASSERT, POR_RELEASE and STARTUP_STEP (R26, R485, R488, R490). -/
def Obligations.StartUp : Prop :=
  porAssertRow ∧ porReleaseRow ∧ startup1Row ∧ startup2Row ∧ startup6Row ∧ startup7Row ∧ startup9Row

open Sys2Proof.Machine in
/-- WS_EXTEST, WS_INTEST, HY_MBIST, HY_FABRIC_BIST and HY_MEM_READ (R517, R518). -/
def Obligations.TestAccess : Prop :=
  wsExtestRow ∧ wsIntestRow ∧ hyMbistRow ∧ hyFabricBistRow ∧ hyMemReadRow ∧ testRefusedRow

namespace Sys2Proof.Machine

open Sys2Proof

/-! ### The block as a whole -/

/-- A step takes the command at the front and runs it with the queue's rest. -/
def stepFrontRow : Prop := ∀ (i : Instr) (rest : List Instr) (s : State), s.pending = i :: rest →
  step s = exec i { s with pending := rest }

/-- No command touches the queue or what the instance was generated with (R4). -/
def queueKeptRow : Prop := ∀ (i : Instr) (s t : State), exec i s = .next t → t.gen = s.gen ∧ t.pending = s.pending

/-- With an empty queue one fc passes (log 3): in reset nothing happens, and otherwise fabric time gains half a nanosecond
where no correction is being slewed (R151). -/
def idleRow : Prop := ∀ s : State, s.pending = [] →
  (s.m.sh.porN = false → step s = .next s) ∧
  (s.m.sh.porN = true → s.m.sh.waitq = [] → s.m.time.slewLen ≤ s.m.time.slewDone →
    ∃ t, step s = .next t ∧ t.pending = [] ∧ t.gen = s.gen ∧ t.m.time.ft = (s.m.time.ft + 32768) % 2 ^ 80 ∧
      t.m.prk = s.m.prk ∧ t.m.engines = s.m.engines ∧ t.m.out = s.m.out)

/-- What reset leaves (R112, R237, R343, R349, R369, R386, R434, R485): nothing waits, every object reads its default, every
function is STOPPED, every port of an NI CLOSED, every link DOWN, every domain in P0, TIME_STATE FREE and PRK_STATE IDLE. -/
def afterResetRow : Prop :=
  State.reset.pending = [] ∧ State.reset.m.sh.porN = false ∧
  (∀ k, State.reset.m.reg State.reset.gen k = dfltOf State.reset.gen State.reset.m k) ∧
  (∀ r, State.reset.gen.hasRouter r = true → (State.reset.m.rt State.reset.gen r).fs = .stopped ∧
    (State.reset.m.rt State.reset.gen r).cyclic = true) ∧
  (∀ l, State.reset.gen.hasNi l = true → State.reset.m.ni l = Ni.reset) ∧
  (∀ i, State.reset.gen.hasEngine i = true → State.reset.m.eng i = Engine.reset) ∧
  (∀ p, State.reset.gen.hasPort p = true → State.reset.m.port p = Port.reset) ∧
  (∀ d, State.reset.gen.hasDom d = true → State.reset.m.dom d = Domain.reset) ∧
  State.reset.m.time = TimeSt.reset ∧ State.reset.m.prk = Prk.reset ∧ State.reset.m.timers = [] ∧ State.reset.m.out = []

/-- R43: the header of a packet and the payload of its header flit say the same, field by field. -/
def headerCodecRow : Prop := (∀ h : Hdr, Hdr.ofBits h.bits = h) ∧ ∀ b : Payload, (Hdr.ofBits b).bits = b

/-- The fields of a flit are within their widths (R34). -/
abbrev Flit.fits (f : Flit) : Prop := f.vc < 16 ∧ f.ftype < 4 ∧ f.crvc < 16 ∧ f.lseq < 256 ∧ f.fidx < 8

/-- The SECDED group a bit of the wire belongs to (R38, R39). -/
def wireGroup (i : Nat) : Nat :=
  if i < 512 then i / 128 else if i < 536 then (i - 512) / 6 else if i < 540 then i - 536 else (i - 540) / 9

/-- R33 to R40: a flit comes off the wire as it went on; any one bit that flips on the way is put right and its group
reported corrected; any two in one group are reported uncorrectable. -/
def flitCodecRow : Prop := ∀ f : Flit, Flit.fits f →
  unpackFlit f.pack = (f, 0, 0) ∧
  (∀ i, i < 576 → unpackFlit (f.pack ^^^ BitVec.twoPow 576 i) = (f, 2 ^ wireGroup i, 0)) ∧
  ∀ i j, i < 576 → j < 576 → i ≠ j → wireGroup i = wireGroup j →
    (unpackFlit (f.pack ^^^ BitVec.twoPow 576 i ^^^ BitVec.twoPow 576 j)).2.2 = 2 ^ wireGroup i

/-- Reset leaves every engine's stores in their canonical form. -/
def memFormResetRow : Prop := State.reset.memWf

/-- Every step keeps them so. -/
def memFormRow : Prop := ∀ s t : State, s.memWf → step s = .next t → t.memWf

end Sys2Proof.Machine

open Sys2Proof.Machine in
/-- A step with a command at the front of the queue is that command on the queue's rest. -/
def Obligations.StepRunsFront : Prop := stepFrontRow

open Sys2Proof.Machine in
/-- Commands leave the queue and the generated description alone, and an empty queue lets one fc pass, which is the model's
choice (log 3). -/
def Obligations.IdleStep : Prop := queueKeptRow ∧ idleRow

open Sys2Proof.Machine in
/-- What reset leaves, the values the spec gives and those the model names (log 12) together. -/
def Obligations.ResetState : Prop := afterResetRow ∧ memFormResetRow

open Sys2Proof.Machine in
/-- The header, the flit and its SECDED code (R33 to R43). -/
def Obligations.FlitCodec : Prop := headerCodecRow ∧ flitCodecRow

open Sys2Proof.Machine in
/-- Scratch and instruction store of every engine stay lists of bytes with rising addresses and no byte that reads as an
unlisted one does, whatever the step. -/
def Obligations.MemoryFormKept : Prop := memFormRow
end

