-- ==== Sys2Proof/Laws/Memory.lean ====
section
/-! SUPPORT. The engines' stores: every write keeps the canonical form, and a byte reads back what was last written to it. -/

namespace Sys2Proof.Machine

open Sys2Proof

/-- A store whose first entry lies beyond `a`, or that is empty. -/
def Mem.above (a : Nat) (mem : List Host.Cell) : Prop := ∀ x, mem.head? = some x → a < x.1

theorem Mem.wf_cons {a : Nat} {b : Byte} {mem : List Host.Cell} :
    Mem.wf ((a, b) :: mem) = true ↔ b ≠ 0 ∧ Mem.above a mem ∧ Mem.wf mem = true := by
  cases mem with
  | nil => simp [Mem.wf, Mem.above]
  | cons x mem => obtain ⟨a', b'⟩ := x; simp [Mem.wf, Mem.above, and_assoc]

theorem Mem.above_write1 {mem : List Host.Cell} {a a' : Nat} {b : Byte} (hw : Mem.wf mem = true) (h : Mem.above a' mem) (ha : a' < a) :
    Mem.above a' (Mem.write1 mem a b) := by
  cases mem with
  | nil =>
    intro x hx
    unfold Mem.write1 at hx
    split at hx <;> simp_all
    subst hx; exact ha
  | cons y mem =>
    obtain ⟨k, v⟩ := y
    have hk : a' < k := h _ rfl
    intro x hx
    unfold Mem.write1 at hx
    split at hx
    · split at hx <;> simp at hx <;> subst hx <;> assumption
    · split at hx
      · split at hx
        · obtain ⟨-, h2, -⟩ := Mem.wf_cons.mp hw
          exact Nat.lt_trans hk (h2 _ hx)
        · simp at hx; subst hx; exact ha
      · simp at hx; subst hx; exact hk

/-- Writing a byte keeps the canonical form. -/
theorem Mem.wf_write1 (mem : List Host.Cell) (a : Nat) (b : Byte) (h : Mem.wf mem = true) : Mem.wf (Mem.write1 mem a b) = true := by
  induction mem with
  | nil => unfold Mem.write1; split <;> simp_all [Mem.wf]
  | cons y mem ih =>
    obtain ⟨k, v⟩ := y
    obtain ⟨h1, h2, h3⟩ := Mem.wf_cons.mp h
    unfold Mem.write1
    split
    · rename_i hak
      split
      · exact h
      · exact Mem.wf_cons.mpr ⟨by assumption, fun x hx => by simp at hx; subst hx; exact hak, h⟩
    · split
      · rename_i hka
        split
        · exact h3
        · exact Mem.wf_cons.mpr ⟨by assumption, hka ▸ h2, h3⟩
      · exact Mem.wf_cons.mpr ⟨h1, Mem.above_write1 h3 h2 (by omega), ih h3⟩

theorem Mem.wf_foldl (l : List (Byte × Nat)) (a : Nat) (mem : List Host.Cell) (h : Mem.wf mem = true) :
    Mem.wf (l.foldl (fun mem (b, i) => Mem.write1 mem (a + i) b) mem) = true := by
  induction l generalizing mem with
  | nil => exact h
  | cons x l ih => exact ih _ (Mem.wf_write1 _ _ _ h)

/-- Writing a number keeps the canonical form. -/
theorem Mem.wf_write (mem : List Host.Cell) (a n v : Nat) (h : Mem.wf mem = true) : Mem.wf (Mem.write mem a n v) = true :=
  Mem.wf_foldl _ _ _ h

/-- Writing bytes keeps the canonical form. -/
theorem Mem.wf_writeBytes (mem : List Host.Cell) (a : Nat) (bs : List Byte) (h : Mem.wf mem = true) :
    Mem.wf (Mem.writeBytes mem a bs) = true :=
  Mem.wf_foldl _ _ _ h

theorem Mem.read1_of_above {mem : List Host.Cell} {a : Nat} (hw : Mem.wf mem = true) (h : Mem.above a mem) : Mem.read1 mem a = 0 := by
  induction mem with
  | nil => rfl
  | cons y mem ih =>
    obtain ⟨k, v⟩ := y
    obtain ⟨-, h2, h3⟩ := Mem.wf_cons.mp hw
    have hk : a < k := h _ rfl
    simp only [Mem.read1]
    rw [if_neg (by omega)]
    exact ih h3 fun x hx => Nat.lt_trans hk (h2 x hx)

/-- A byte reads back what was written to it. -/
theorem Mem.read1_write1 (mem : List Host.Cell) (a : Nat) (b : Byte) (h : Mem.wf mem = true) : Mem.read1 (Mem.write1 mem a b) a = b := by
  induction mem with
  | nil => unfold Mem.write1; split <;> simp_all [Mem.read1]
  | cons y mem ih =>
    obtain ⟨k, v⟩ := y
    obtain ⟨-, h2, h3⟩ := Mem.wf_cons.mp h
    unfold Mem.write1
    split
    · rename_i hak
      split
      · rename_i hb
        rw [hb]
        exact Mem.read1_of_above h fun x hx => by simp at hx; subst hx; exact hak
      · simp [Mem.read1]
    · split
      · rename_i hka
        split
        · rename_i hb
          rw [hb]
          exact Mem.read1_of_above h3 (hka ▸ h2)
        · simp [Mem.read1]
      · simp only [Mem.read1]
        rw [if_neg (by assumption)]
        exact ih h3

/-- A byte that is not written reads as before, whatever the list. -/
theorem Mem.read1_write1_ne (mem : List Host.Cell) {a a' : Nat} (b : Byte) (h : a' ≠ a) :
    Mem.read1 (Mem.write1 mem a b) a' = Mem.read1 mem a' := by
  induction mem with
  | nil => unfold Mem.write1; split <;> simp [Mem.read1, h.symm]
  | cons y mem ih =>
    obtain ⟨k, v⟩ := y
    unfold Mem.write1
    split
    · split
      · rfl
      · simp [Mem.read1, h.symm]
    · split
      · rename_i hka
        subst hka
        split <;> simp [Mem.read1, h.symm]
      · simp only [Mem.read1]
        split
        · rfl
        · exact ih

/-- The stores of an engine after reset are in their canonical form. -/
theorem Engine.reset_wf : Mem.wf Engine.reset.scratch = true ∧ Mem.wf Engine.reset.imem = true := by decide

end Sys2Proof.Machine
end

