-- ==== Sys2Proof/Laws/State.lean ====
section
/-! SUPPORT. The small lemmas of State: what each named update of `Mach` leaves alone, field by field, and what a read
after a write of a keyed table gives. -/

namespace Sys2Proof

/-! ### Keyed tables -/

namespace Tab

variable {α : Type}

@[simp] theorem get?_put_self (t : Tab α) (k : Nat) (v : α) : (t.put k v).get? k = some v := by
  induction t with
  | nil => simp [put, get?]
  | cons x t ih =>
    obtain ⟨k', v'⟩ := x
    simp only [put]
    split
    · simp [get?]
    · split
      · simp [get?]
      · rename_i h
        simp [get?, h, ih]

theorem get?_put_ne (t : Tab α) {k j : Nat} (v : α) (h : j ≠ k) : (t.put k v).get? j = t.get? j := by
  induction t with
  | nil => simp [put, get?, h.symm]
  | cons x t ih =>
    obtain ⟨k', v'⟩ := x
    simp only [put]
    split
    · simp [get?, h.symm]
    · split
      · rename_i h2
        subst h2
        simp [get?, h.symm]
      · simp [get?, ih]

@[simp] theorem get?_upd_self (t : Tab α) (k : Nat) (f : α → α) : (t.upd k f).get? k = (t.get? k).map f := by
  induction t with
  | nil => rfl
  | cons x t ih =>
    obtain ⟨k', v'⟩ := x
    by_cases h : k' = k
    · simp [upd, get?, h]
    · simp [upd, get?, h, ih]

theorem get?_upd_ne (t : Tab α) {k j : Nat} (f : α → α) (h : j ≠ k) : (t.upd k f).get? j = t.get? j := by
  induction t with
  | nil => rfl
  | cons x t ih =>
    obtain ⟨k', v'⟩ := x
    by_cases hk : k' = k
    · subst hk
      simp [upd, get?, h.symm]
    · simp [upd, get?, hk, ih]

@[simp] theorem has_put_self (t : Tab α) (k : Nat) (v : α) : (t.put k v).has k = true := by simp [has]

@[simp] theorem has_upd (t : Tab α) (k j : Nat) (f : α → α) : (t.upd k f).has j = t.has j := by
  by_cases h : j = k
  · subst h
    cases hx : t.get? j <;> simp [has, hx]
  · simp [has, get?_upd_ne t f h]

@[simp] theorem getD_put_self (t : Tab α) (k : Nat) (v d : α) : (t.put k v).getD k d = v := by simp [getD]

theorem getD_put_ne (t : Tab α) {k j : Nat} (v d : α) (h : j ≠ k) : (t.put k v).getD j d = t.getD j d := by
  simp [getD, get?_put_ne t v h]

theorem getD_upd_self (t : Tab α) (k : Nat) (f : α → α) (d : α) (h : t.has k = true) :
    (t.upd k f).getD k d = f (t.getD k d) := by
  cases hx : t.get? k <;> simp_all [getD, has]

theorem getD_upd_ne (t : Tab α) {k j : Nat} (f : α → α) (d : α) (h : j ≠ k) : (t.upd k f).getD j d = t.getD j d := by
  simp [getD, get?_upd_ne t f h]

end Tab

namespace Machine

/-! ### setReg -/

@[simp] theorem Mach.setReg_inForce (m : Mach) (k v : Nat) : (m.setReg k v).inForce = m.inForce := rfl
@[simp] theorem Mach.setReg_time (m : Mach) (k v : Nat) : (m.setReg k v).time = m.time := rfl
@[simp] theorem Mach.setReg_sh (m : Mach) (k v : Nat) : (m.setReg k v).sh = m.sh := rfl
@[simp] theorem Mach.setReg_routers (m : Mach) (k v : Nat) : (m.setReg k v).routers = m.routers := rfl
@[simp] theorem Mach.setReg_nis (m : Mach) (k v : Nat) : (m.setReg k v).nis = m.nis := rfl
@[simp] theorem Mach.setReg_engines (m : Mach) (k v : Nat) : (m.setReg k v).engines = m.engines := rfl
@[simp] theorem Mach.setReg_ports (m : Mach) (k v : Nat) : (m.setReg k v).ports = m.ports := rfl
@[simp] theorem Mach.setReg_domains (m : Mach) (k v : Nat) : (m.setReg k v).domains = m.domains := rfl
@[simp] theorem Mach.setReg_prk (m : Mach) (k v : Nat) : (m.setReg k v).prk = m.prk := rfl
@[simp] theorem Mach.setReg_logs (m : Mach) (k v : Nat) : (m.setReg k v).logs = m.logs := rfl
@[simp] theorem Mach.setReg_hw (m : Mach) (k v : Nat) : (m.setReg k v).hw = m.hw := rfl
@[simp] theorem Mach.setReg_timers (m : Mach) (k v : Nat) : (m.setReg k v).timers = m.timers := rfl
@[simp] theorem Mach.setReg_wires (m : Mach) (k v : Nat) : (m.setReg k v).wires = m.wires := rfl
@[simp] theorem Mach.setReg_fresh (m : Mach) (k v : Nat) : (m.setReg k v).fresh = m.fresh := rfl
@[simp] theorem Mach.setReg_out (m : Mach) (k v : Nat) : (m.setReg k v).out = m.out := rfl

/-! ### addSat -/

@[simp] theorem Mach.addSat_inForce (m : Mach) (g : Gen) (k n : Nat) : (m.addSat g k n).inForce = m.inForce := rfl
@[simp] theorem Mach.addSat_time (m : Mach) (g : Gen) (k n : Nat) : (m.addSat g k n).time = m.time := rfl
@[simp] theorem Mach.addSat_sh (m : Mach) (g : Gen) (k n : Nat) : (m.addSat g k n).sh = m.sh := rfl
@[simp] theorem Mach.addSat_routers (m : Mach) (g : Gen) (k n : Nat) : (m.addSat g k n).routers = m.routers := rfl
@[simp] theorem Mach.addSat_nis (m : Mach) (g : Gen) (k n : Nat) : (m.addSat g k n).nis = m.nis := rfl
@[simp] theorem Mach.addSat_engines (m : Mach) (g : Gen) (k n : Nat) : (m.addSat g k n).engines = m.engines := rfl
@[simp] theorem Mach.addSat_ports (m : Mach) (g : Gen) (k n : Nat) : (m.addSat g k n).ports = m.ports := rfl
@[simp] theorem Mach.addSat_domains (m : Mach) (g : Gen) (k n : Nat) : (m.addSat g k n).domains = m.domains := rfl
@[simp] theorem Mach.addSat_prk (m : Mach) (g : Gen) (k n : Nat) : (m.addSat g k n).prk = m.prk := rfl
@[simp] theorem Mach.addSat_logs (m : Mach) (g : Gen) (k n : Nat) : (m.addSat g k n).logs = m.logs := rfl
@[simp] theorem Mach.addSat_hw (m : Mach) (g : Gen) (k n : Nat) : (m.addSat g k n).hw = m.hw := rfl
@[simp] theorem Mach.addSat_timers (m : Mach) (g : Gen) (k n : Nat) : (m.addSat g k n).timers = m.timers := rfl
@[simp] theorem Mach.addSat_wires (m : Mach) (g : Gen) (k n : Nat) : (m.addSat g k n).wires = m.wires := rfl
@[simp] theorem Mach.addSat_fresh (m : Mach) (g : Gen) (k n : Nat) : (m.addSat g k n).fresh = m.fresh := rfl
@[simp] theorem Mach.addSat_out (m : Mach) (g : Gen) (k n : Nat) : (m.addSat g k n).out = m.out := rfl

/-! ### addWrap -/

@[simp] theorem Mach.addWrap_inForce (m : Mach) (g : Gen) (k n : Nat) : (m.addWrap g k n).inForce = m.inForce := rfl
@[simp] theorem Mach.addWrap_time (m : Mach) (g : Gen) (k n : Nat) : (m.addWrap g k n).time = m.time := rfl
@[simp] theorem Mach.addWrap_sh (m : Mach) (g : Gen) (k n : Nat) : (m.addWrap g k n).sh = m.sh := rfl
@[simp] theorem Mach.addWrap_routers (m : Mach) (g : Gen) (k n : Nat) : (m.addWrap g k n).routers = m.routers := rfl
@[simp] theorem Mach.addWrap_nis (m : Mach) (g : Gen) (k n : Nat) : (m.addWrap g k n).nis = m.nis := rfl
@[simp] theorem Mach.addWrap_engines (m : Mach) (g : Gen) (k n : Nat) : (m.addWrap g k n).engines = m.engines := rfl
@[simp] theorem Mach.addWrap_ports (m : Mach) (g : Gen) (k n : Nat) : (m.addWrap g k n).ports = m.ports := rfl
@[simp] theorem Mach.addWrap_domains (m : Mach) (g : Gen) (k n : Nat) : (m.addWrap g k n).domains = m.domains := rfl
@[simp] theorem Mach.addWrap_prk (m : Mach) (g : Gen) (k n : Nat) : (m.addWrap g k n).prk = m.prk := rfl
@[simp] theorem Mach.addWrap_logs (m : Mach) (g : Gen) (k n : Nat) : (m.addWrap g k n).logs = m.logs := rfl
@[simp] theorem Mach.addWrap_hw (m : Mach) (g : Gen) (k n : Nat) : (m.addWrap g k n).hw = m.hw := rfl
@[simp] theorem Mach.addWrap_timers (m : Mach) (g : Gen) (k n : Nat) : (m.addWrap g k n).timers = m.timers := rfl
@[simp] theorem Mach.addWrap_wires (m : Mach) (g : Gen) (k n : Nat) : (m.addWrap g k n).wires = m.wires := rfl
@[simp] theorem Mach.addWrap_fresh (m : Mach) (g : Gen) (k n : Nat) : (m.addWrap g k n).fresh = m.fresh := rfl
@[simp] theorem Mach.addWrap_out (m : Mach) (g : Gen) (k n : Nat) : (m.addWrap g k n).out = m.out := rfl

/-! ### write -/

@[simp] theorem Mach.write_inForce (m : Mach) (k v : Nat) : (m.write k v).inForce = m.inForce := rfl
@[simp] theorem Mach.write_time (m : Mach) (k v : Nat) : (m.write k v).time = m.time := rfl
@[simp] theorem Mach.write_sh (m : Mach) (k v : Nat) : (m.write k v).sh = m.sh := rfl
@[simp] theorem Mach.write_routers (m : Mach) (k v : Nat) : (m.write k v).routers = m.routers := rfl
@[simp] theorem Mach.write_nis (m : Mach) (k v : Nat) : (m.write k v).nis = m.nis := rfl
@[simp] theorem Mach.write_engines (m : Mach) (k v : Nat) : (m.write k v).engines = m.engines := rfl
@[simp] theorem Mach.write_ports (m : Mach) (k v : Nat) : (m.write k v).ports = m.ports := rfl
@[simp] theorem Mach.write_domains (m : Mach) (k v : Nat) : (m.write k v).domains = m.domains := rfl
@[simp] theorem Mach.write_prk (m : Mach) (k v : Nat) : (m.write k v).prk = m.prk := rfl
@[simp] theorem Mach.write_logs (m : Mach) (k v : Nat) : (m.write k v).logs = m.logs := rfl
@[simp] theorem Mach.write_hw (m : Mach) (k v : Nat) : (m.write k v).hw = m.hw := rfl
@[simp] theorem Mach.write_timers (m : Mach) (k v : Nat) : (m.write k v).timers = m.timers := rfl
@[simp] theorem Mach.write_wires (m : Mach) (k v : Nat) : (m.write k v).wires = m.wires := rfl
@[simp] theorem Mach.write_fresh (m : Mach) (k v : Nat) : (m.write k v).fresh = m.fresh := rfl
@[simp] theorem Mach.write_out (m : Mach) (k v : Nat) : (m.write k v).out = m.out := rfl

/-! ### noteHw -/

@[simp] theorem Mach.noteHw_regs (m : Mach) (k mask v : Nat) : (m.noteHw k mask v).regs = m.regs := rfl
@[simp] theorem Mach.noteHw_inForce (m : Mach) (k mask v : Nat) : (m.noteHw k mask v).inForce = m.inForce := rfl
@[simp] theorem Mach.noteHw_time (m : Mach) (k mask v : Nat) : (m.noteHw k mask v).time = m.time := rfl
@[simp] theorem Mach.noteHw_sh (m : Mach) (k mask v : Nat) : (m.noteHw k mask v).sh = m.sh := rfl
@[simp] theorem Mach.noteHw_routers (m : Mach) (k mask v : Nat) : (m.noteHw k mask v).routers = m.routers := rfl
@[simp] theorem Mach.noteHw_nis (m : Mach) (k mask v : Nat) : (m.noteHw k mask v).nis = m.nis := rfl
@[simp] theorem Mach.noteHw_engines (m : Mach) (k mask v : Nat) : (m.noteHw k mask v).engines = m.engines := rfl
@[simp] theorem Mach.noteHw_ports (m : Mach) (k mask v : Nat) : (m.noteHw k mask v).ports = m.ports := rfl
@[simp] theorem Mach.noteHw_domains (m : Mach) (k mask v : Nat) : (m.noteHw k mask v).domains = m.domains := rfl
@[simp] theorem Mach.noteHw_prk (m : Mach) (k mask v : Nat) : (m.noteHw k mask v).prk = m.prk := rfl
@[simp] theorem Mach.noteHw_logs (m : Mach) (k mask v : Nat) : (m.noteHw k mask v).logs = m.logs := rfl
@[simp] theorem Mach.noteHw_timers (m : Mach) (k mask v : Nat) : (m.noteHw k mask v).timers = m.timers := rfl
@[simp] theorem Mach.noteHw_wires (m : Mach) (k mask v : Nat) : (m.noteHw k mask v).wires = m.wires := rfl
@[simp] theorem Mach.noteHw_fresh (m : Mach) (k mask v : Nat) : (m.noteHw k mask v).fresh = m.fresh := rfl
@[simp] theorem Mach.noteHw_out (m : Mach) (k mask v : Nat) : (m.noteHw k mask v).out = m.out := rfl

/-! ### orReg -/

@[simp] theorem Mach.orReg_inForce (m : Mach) (g : Gen) (k v : Nat) : (m.orReg g k v).inForce = m.inForce := rfl
@[simp] theorem Mach.orReg_time (m : Mach) (g : Gen) (k v : Nat) : (m.orReg g k v).time = m.time := rfl
@[simp] theorem Mach.orReg_sh (m : Mach) (g : Gen) (k v : Nat) : (m.orReg g k v).sh = m.sh := rfl
@[simp] theorem Mach.orReg_routers (m : Mach) (g : Gen) (k v : Nat) : (m.orReg g k v).routers = m.routers := rfl
@[simp] theorem Mach.orReg_nis (m : Mach) (g : Gen) (k v : Nat) : (m.orReg g k v).nis = m.nis := rfl
@[simp] theorem Mach.orReg_engines (m : Mach) (g : Gen) (k v : Nat) : (m.orReg g k v).engines = m.engines := rfl
@[simp] theorem Mach.orReg_ports (m : Mach) (g : Gen) (k v : Nat) : (m.orReg g k v).ports = m.ports := rfl
@[simp] theorem Mach.orReg_domains (m : Mach) (g : Gen) (k v : Nat) : (m.orReg g k v).domains = m.domains := rfl
@[simp] theorem Mach.orReg_prk (m : Mach) (g : Gen) (k v : Nat) : (m.orReg g k v).prk = m.prk := rfl
@[simp] theorem Mach.orReg_logs (m : Mach) (g : Gen) (k v : Nat) : (m.orReg g k v).logs = m.logs := rfl
@[simp] theorem Mach.orReg_timers (m : Mach) (g : Gen) (k v : Nat) : (m.orReg g k v).timers = m.timers := rfl
@[simp] theorem Mach.orReg_wires (m : Mach) (g : Gen) (k v : Nat) : (m.orReg g k v).wires = m.wires := rfl
@[simp] theorem Mach.orReg_fresh (m : Mach) (g : Gen) (k v : Nat) : (m.orReg g k v).fresh = m.fresh := rfl
@[simp] theorem Mach.orReg_out (m : Mach) (g : Gen) (k v : Nat) : (m.orReg g k v).out = m.out := rfl

/-! ### hwReg -/

@[simp] theorem Mach.hwReg_inForce (m : Mach) (g : Gen) (k mask v : Nat) : (m.hwReg g k mask v).inForce = m.inForce := rfl
@[simp] theorem Mach.hwReg_time (m : Mach) (g : Gen) (k mask v : Nat) : (m.hwReg g k mask v).time = m.time := rfl
@[simp] theorem Mach.hwReg_sh (m : Mach) (g : Gen) (k mask v : Nat) : (m.hwReg g k mask v).sh = m.sh := rfl
@[simp] theorem Mach.hwReg_routers (m : Mach) (g : Gen) (k mask v : Nat) : (m.hwReg g k mask v).routers = m.routers := rfl
@[simp] theorem Mach.hwReg_nis (m : Mach) (g : Gen) (k mask v : Nat) : (m.hwReg g k mask v).nis = m.nis := rfl
@[simp] theorem Mach.hwReg_engines (m : Mach) (g : Gen) (k mask v : Nat) : (m.hwReg g k mask v).engines = m.engines := rfl
@[simp] theorem Mach.hwReg_ports (m : Mach) (g : Gen) (k mask v : Nat) : (m.hwReg g k mask v).ports = m.ports := rfl
@[simp] theorem Mach.hwReg_domains (m : Mach) (g : Gen) (k mask v : Nat) : (m.hwReg g k mask v).domains = m.domains := rfl
@[simp] theorem Mach.hwReg_prk (m : Mach) (g : Gen) (k mask v : Nat) : (m.hwReg g k mask v).prk = m.prk := rfl
@[simp] theorem Mach.hwReg_logs (m : Mach) (g : Gen) (k mask v : Nat) : (m.hwReg g k mask v).logs = m.logs := rfl
@[simp] theorem Mach.hwReg_timers (m : Mach) (g : Gen) (k mask v : Nat) : (m.hwReg g k mask v).timers = m.timers := rfl
@[simp] theorem Mach.hwReg_wires (m : Mach) (g : Gen) (k mask v : Nat) : (m.hwReg g k mask v).wires = m.wires := rfl
@[simp] theorem Mach.hwReg_fresh (m : Mach) (g : Gen) (k mask v : Nat) : (m.hwReg g k mask v).fresh = m.fresh := rfl
@[simp] theorem Mach.hwReg_out (m : Mach) (g : Gen) (k mask v : Nat) : (m.hwReg g k mask v).out = m.out := rfl

/-! ### startTimer -/

@[simp] theorem Mach.startTimer_regs (m : Mach) (t : Timer) (len : Nat) : (m.startTimer t len).regs = m.regs := rfl
@[simp] theorem Mach.startTimer_inForce (m : Mach) (t : Timer) (len : Nat) : (m.startTimer t len).inForce = m.inForce := rfl
@[simp] theorem Mach.startTimer_time (m : Mach) (t : Timer) (len : Nat) : (m.startTimer t len).time = m.time := rfl
@[simp] theorem Mach.startTimer_sh (m : Mach) (t : Timer) (len : Nat) : (m.startTimer t len).sh = m.sh := rfl
@[simp] theorem Mach.startTimer_routers (m : Mach) (t : Timer) (len : Nat) : (m.startTimer t len).routers = m.routers := rfl
@[simp] theorem Mach.startTimer_nis (m : Mach) (t : Timer) (len : Nat) : (m.startTimer t len).nis = m.nis := rfl
@[simp] theorem Mach.startTimer_engines (m : Mach) (t : Timer) (len : Nat) : (m.startTimer t len).engines = m.engines := rfl
@[simp] theorem Mach.startTimer_ports (m : Mach) (t : Timer) (len : Nat) : (m.startTimer t len).ports = m.ports := rfl
@[simp] theorem Mach.startTimer_domains (m : Mach) (t : Timer) (len : Nat) : (m.startTimer t len).domains = m.domains := rfl
@[simp] theorem Mach.startTimer_prk (m : Mach) (t : Timer) (len : Nat) : (m.startTimer t len).prk = m.prk := rfl
@[simp] theorem Mach.startTimer_logs (m : Mach) (t : Timer) (len : Nat) : (m.startTimer t len).logs = m.logs := rfl
@[simp] theorem Mach.startTimer_hw (m : Mach) (t : Timer) (len : Nat) : (m.startTimer t len).hw = m.hw := rfl
@[simp] theorem Mach.startTimer_wires (m : Mach) (t : Timer) (len : Nat) : (m.startTimer t len).wires = m.wires := rfl
@[simp] theorem Mach.startTimer_fresh (m : Mach) (t : Timer) (len : Nat) : (m.startTimer t len).fresh = m.fresh := rfl
@[simp] theorem Mach.startTimer_out (m : Mach) (t : Timer) (len : Nat) : (m.startTimer t len).out = m.out := rfl

/-! ### stopTimers -/

@[simp] theorem Mach.stopTimers_regs (m : Mach) (p : Timer → Bool) : (m.stopTimers p).regs = m.regs := rfl
@[simp] theorem Mach.stopTimers_inForce (m : Mach) (p : Timer → Bool) : (m.stopTimers p).inForce = m.inForce := rfl
@[simp] theorem Mach.stopTimers_time (m : Mach) (p : Timer → Bool) : (m.stopTimers p).time = m.time := rfl
@[simp] theorem Mach.stopTimers_sh (m : Mach) (p : Timer → Bool) : (m.stopTimers p).sh = m.sh := rfl
@[simp] theorem Mach.stopTimers_routers (m : Mach) (p : Timer → Bool) : (m.stopTimers p).routers = m.routers := rfl
@[simp] theorem Mach.stopTimers_nis (m : Mach) (p : Timer → Bool) : (m.stopTimers p).nis = m.nis := rfl
@[simp] theorem Mach.stopTimers_engines (m : Mach) (p : Timer → Bool) : (m.stopTimers p).engines = m.engines := rfl
@[simp] theorem Mach.stopTimers_ports (m : Mach) (p : Timer → Bool) : (m.stopTimers p).ports = m.ports := rfl
@[simp] theorem Mach.stopTimers_domains (m : Mach) (p : Timer → Bool) : (m.stopTimers p).domains = m.domains := rfl
@[simp] theorem Mach.stopTimers_prk (m : Mach) (p : Timer → Bool) : (m.stopTimers p).prk = m.prk := rfl
@[simp] theorem Mach.stopTimers_logs (m : Mach) (p : Timer → Bool) : (m.stopTimers p).logs = m.logs := rfl
@[simp] theorem Mach.stopTimers_hw (m : Mach) (p : Timer → Bool) : (m.stopTimers p).hw = m.hw := rfl
@[simp] theorem Mach.stopTimers_wires (m : Mach) (p : Timer → Bool) : (m.stopTimers p).wires = m.wires := rfl
@[simp] theorem Mach.stopTimers_fresh (m : Mach) (p : Timer → Bool) : (m.stopTimers p).fresh = m.fresh := rfl
@[simp] theorem Mach.stopTimers_out (m : Mach) (p : Timer → Bool) : (m.stopTimers p).out = m.out := rfl

/-! ### stopTimer -/

@[simp] theorem Mach.stopTimer_regs (m : Mach) (t : Timer) : (m.stopTimer t).regs = m.regs := rfl
@[simp] theorem Mach.stopTimer_inForce (m : Mach) (t : Timer) : (m.stopTimer t).inForce = m.inForce := rfl
@[simp] theorem Mach.stopTimer_time (m : Mach) (t : Timer) : (m.stopTimer t).time = m.time := rfl
@[simp] theorem Mach.stopTimer_sh (m : Mach) (t : Timer) : (m.stopTimer t).sh = m.sh := rfl
@[simp] theorem Mach.stopTimer_routers (m : Mach) (t : Timer) : (m.stopTimer t).routers = m.routers := rfl
@[simp] theorem Mach.stopTimer_nis (m : Mach) (t : Timer) : (m.stopTimer t).nis = m.nis := rfl
@[simp] theorem Mach.stopTimer_engines (m : Mach) (t : Timer) : (m.stopTimer t).engines = m.engines := rfl
@[simp] theorem Mach.stopTimer_ports (m : Mach) (t : Timer) : (m.stopTimer t).ports = m.ports := rfl
@[simp] theorem Mach.stopTimer_domains (m : Mach) (t : Timer) : (m.stopTimer t).domains = m.domains := rfl
@[simp] theorem Mach.stopTimer_prk (m : Mach) (t : Timer) : (m.stopTimer t).prk = m.prk := rfl
@[simp] theorem Mach.stopTimer_logs (m : Mach) (t : Timer) : (m.stopTimer t).logs = m.logs := rfl
@[simp] theorem Mach.stopTimer_hw (m : Mach) (t : Timer) : (m.stopTimer t).hw = m.hw := rfl
@[simp] theorem Mach.stopTimer_wires (m : Mach) (t : Timer) : (m.stopTimer t).wires = m.wires := rfl
@[simp] theorem Mach.stopTimer_fresh (m : Mach) (t : Timer) : (m.stopTimer t).fresh = m.fresh := rfl
@[simp] theorem Mach.stopTimer_out (m : Mach) (t : Timer) : (m.stopTimer t).out = m.out := rfl

/-! ### pass -/

@[simp] theorem Mach.pass_regs (m : Mach) (n : Nat) : (m.pass n).regs = m.regs := by
  unfold Mach.pass alignSc
  repeat' split
  all_goals rfl
@[simp] theorem Mach.pass_inForce (m : Mach) (n : Nat) : (m.pass n).inForce = m.inForce := by
  unfold Mach.pass alignSc
  repeat' split
  all_goals rfl
@[simp] theorem Mach.pass_sh (m : Mach) (n : Nat) : (m.pass n).sh = m.sh := by
  unfold Mach.pass alignSc
  repeat' split
  all_goals rfl
@[simp] theorem Mach.pass_routers (m : Mach) (n : Nat) : (m.pass n).routers = m.routers := by
  unfold Mach.pass alignSc
  repeat' split
  all_goals rfl
@[simp] theorem Mach.pass_nis (m : Mach) (n : Nat) : (m.pass n).nis = m.nis := by
  unfold Mach.pass alignSc
  repeat' split
  all_goals rfl
@[simp] theorem Mach.pass_engines (m : Mach) (n : Nat) : (m.pass n).engines = m.engines := by
  unfold Mach.pass alignSc
  repeat' split
  all_goals rfl
@[simp] theorem Mach.pass_ports (m : Mach) (n : Nat) : (m.pass n).ports = m.ports := by
  unfold Mach.pass alignSc
  repeat' split
  all_goals rfl
@[simp] theorem Mach.pass_domains (m : Mach) (n : Nat) : (m.pass n).domains = m.domains := by
  unfold Mach.pass alignSc
  repeat' split
  all_goals rfl
@[simp] theorem Mach.pass_prk (m : Mach) (n : Nat) : (m.pass n).prk = m.prk := by
  unfold Mach.pass alignSc
  repeat' split
  all_goals rfl
@[simp] theorem Mach.pass_logs (m : Mach) (n : Nat) : (m.pass n).logs = m.logs := by
  unfold Mach.pass alignSc
  repeat' split
  all_goals rfl
@[simp] theorem Mach.pass_hw (m : Mach) (n : Nat) : (m.pass n).hw = m.hw := by
  unfold Mach.pass alignSc
  repeat' split
  all_goals rfl
@[simp] theorem Mach.pass_timers (m : Mach) (n : Nat) : (m.pass n).timers = m.timers := by
  unfold Mach.pass alignSc
  repeat' split
  all_goals rfl
@[simp] theorem Mach.pass_wires (m : Mach) (n : Nat) : (m.pass n).wires = m.wires := by
  unfold Mach.pass alignSc
  repeat' split
  all_goals rfl
@[simp] theorem Mach.pass_fresh (m : Mach) (n : Nat) : (m.pass n).fresh = m.fresh := by
  unfold Mach.pass alignSc
  repeat' split
  all_goals rfl
@[simp] theorem Mach.pass_out (m : Mach) (n : Nat) : (m.pass n).out = m.out := by
  unfold Mach.pass alignSc
  repeat' split
  all_goals rfl

/-! ### apply -/

@[simp] theorem Mach.apply_regs (m : Mach) (p : Nat → Bool) : (m.apply p).regs = m.regs := rfl
@[simp] theorem Mach.apply_time (m : Mach) (p : Nat → Bool) : (m.apply p).time = m.time := rfl
@[simp] theorem Mach.apply_sh (m : Mach) (p : Nat → Bool) : (m.apply p).sh = m.sh := rfl
@[simp] theorem Mach.apply_routers (m : Mach) (p : Nat → Bool) : (m.apply p).routers = m.routers := rfl
@[simp] theorem Mach.apply_nis (m : Mach) (p : Nat → Bool) : (m.apply p).nis = m.nis := rfl
@[simp] theorem Mach.apply_engines (m : Mach) (p : Nat → Bool) : (m.apply p).engines = m.engines := rfl
@[simp] theorem Mach.apply_ports (m : Mach) (p : Nat → Bool) : (m.apply p).ports = m.ports := rfl
@[simp] theorem Mach.apply_domains (m : Mach) (p : Nat → Bool) : (m.apply p).domains = m.domains := rfl
@[simp] theorem Mach.apply_prk (m : Mach) (p : Nat → Bool) : (m.apply p).prk = m.prk := rfl
@[simp] theorem Mach.apply_logs (m : Mach) (p : Nat → Bool) : (m.apply p).logs = m.logs := rfl
@[simp] theorem Mach.apply_hw (m : Mach) (p : Nat → Bool) : (m.apply p).hw = m.hw := rfl
@[simp] theorem Mach.apply_timers (m : Mach) (p : Nat → Bool) : (m.apply p).timers = m.timers := rfl
@[simp] theorem Mach.apply_wires (m : Mach) (p : Nat → Bool) : (m.apply p).wires = m.wires := rfl
@[simp] theorem Mach.apply_fresh (m : Mach) (p : Nat → Bool) : (m.apply p).fresh = m.fresh := rfl
@[simp] theorem Mach.apply_out (m : Mach) (p : Nat → Bool) : (m.apply p).out = m.out := rfl

/-! ### advanceTo -/

@[simp] theorem Mach.advanceTo_regs (m : Mach) (t : Nat) : (m.advanceTo t).regs = m.regs := by simp [Mach.advanceTo]
@[simp] theorem Mach.advanceTo_inForce (m : Mach) (t : Nat) : (m.advanceTo t).inForce = m.inForce := by simp [Mach.advanceTo]
@[simp] theorem Mach.advanceTo_sh (m : Mach) (t : Nat) : (m.advanceTo t).sh = m.sh := by simp [Mach.advanceTo]
@[simp] theorem Mach.advanceTo_routers (m : Mach) (t : Nat) : (m.advanceTo t).routers = m.routers := by simp [Mach.advanceTo]
@[simp] theorem Mach.advanceTo_nis (m : Mach) (t : Nat) : (m.advanceTo t).nis = m.nis := by simp [Mach.advanceTo]
@[simp] theorem Mach.advanceTo_engines (m : Mach) (t : Nat) : (m.advanceTo t).engines = m.engines := by simp [Mach.advanceTo]
@[simp] theorem Mach.advanceTo_ports (m : Mach) (t : Nat) : (m.advanceTo t).ports = m.ports := by simp [Mach.advanceTo]
@[simp] theorem Mach.advanceTo_domains (m : Mach) (t : Nat) : (m.advanceTo t).domains = m.domains := by simp [Mach.advanceTo]
@[simp] theorem Mach.advanceTo_prk (m : Mach) (t : Nat) : (m.advanceTo t).prk = m.prk := by simp [Mach.advanceTo]
@[simp] theorem Mach.advanceTo_logs (m : Mach) (t : Nat) : (m.advanceTo t).logs = m.logs := by simp [Mach.advanceTo]
@[simp] theorem Mach.advanceTo_hw (m : Mach) (t : Nat) : (m.advanceTo t).hw = m.hw := by simp [Mach.advanceTo]
@[simp] theorem Mach.advanceTo_timers (m : Mach) (t : Nat) : (m.advanceTo t).timers = m.timers := by simp [Mach.advanceTo]
@[simp] theorem Mach.advanceTo_wires (m : Mach) (t : Nat) : (m.advanceTo t).wires = m.wires := by simp [Mach.advanceTo]
@[simp] theorem Mach.advanceTo_fresh (m : Mach) (t : Nat) : (m.advanceTo t).fresh = m.fresh := by simp [Mach.advanceTo]
@[simp] theorem Mach.advanceTo_out (m : Mach) (t : Nat) : (m.advanceTo t).out = m.out := by simp [Mach.advanceTo]

/-! ### advanceFt -/

@[simp] theorem Mach.advanceFt_regs (m : Mach) (t : Nat) : (m.advanceFt t).regs = m.regs := by
  unfold Mach.advanceFt
  split <;> simp
@[simp] theorem Mach.advanceFt_inForce (m : Mach) (t : Nat) : (m.advanceFt t).inForce = m.inForce := by
  unfold Mach.advanceFt
  split <;> simp
@[simp] theorem Mach.advanceFt_sh (m : Mach) (t : Nat) : (m.advanceFt t).sh = m.sh := by
  unfold Mach.advanceFt
  split <;> simp
@[simp] theorem Mach.advanceFt_routers (m : Mach) (t : Nat) : (m.advanceFt t).routers = m.routers := by
  unfold Mach.advanceFt
  split <;> simp
@[simp] theorem Mach.advanceFt_nis (m : Mach) (t : Nat) : (m.advanceFt t).nis = m.nis := by
  unfold Mach.advanceFt
  split <;> simp
@[simp] theorem Mach.advanceFt_engines (m : Mach) (t : Nat) : (m.advanceFt t).engines = m.engines := by
  unfold Mach.advanceFt
  split <;> simp
@[simp] theorem Mach.advanceFt_ports (m : Mach) (t : Nat) : (m.advanceFt t).ports = m.ports := by
  unfold Mach.advanceFt
  split <;> simp
@[simp] theorem Mach.advanceFt_domains (m : Mach) (t : Nat) : (m.advanceFt t).domains = m.domains := by
  unfold Mach.advanceFt
  split <;> simp
@[simp] theorem Mach.advanceFt_prk (m : Mach) (t : Nat) : (m.advanceFt t).prk = m.prk := by
  unfold Mach.advanceFt
  split <;> simp
@[simp] theorem Mach.advanceFt_logs (m : Mach) (t : Nat) : (m.advanceFt t).logs = m.logs := by
  unfold Mach.advanceFt
  split <;> simp
@[simp] theorem Mach.advanceFt_hw (m : Mach) (t : Nat) : (m.advanceFt t).hw = m.hw := by
  unfold Mach.advanceFt
  split <;> simp
@[simp] theorem Mach.advanceFt_timers (m : Mach) (t : Nat) : (m.advanceFt t).timers = m.timers := by
  unfold Mach.advanceFt
  split <;> simp
@[simp] theorem Mach.advanceFt_wires (m : Mach) (t : Nat) : (m.advanceFt t).wires = m.wires := by
  unfold Mach.advanceFt
  split <;> simp
@[simp] theorem Mach.advanceFt_fresh (m : Mach) (t : Nat) : (m.advanceFt t).fresh = m.fresh := by
  unfold Mach.advanceFt
  split <;> simp
@[simp] theorem Mach.advanceFt_out (m : Mach) (t : Nat) : (m.advanceFt t).out = m.out := by
  unfold Mach.advanceFt
  split <;> simp

/-! ### updR -/

@[simp] theorem Mach.updR_regs (m : Mach) (r : Nat) (f : Router → Router) : (m.updR r f).regs = m.regs := rfl
@[simp] theorem Mach.updR_inForce (m : Mach) (r : Nat) (f : Router → Router) : (m.updR r f).inForce = m.inForce := rfl
@[simp] theorem Mach.updR_time (m : Mach) (r : Nat) (f : Router → Router) : (m.updR r f).time = m.time := rfl
@[simp] theorem Mach.updR_sh (m : Mach) (r : Nat) (f : Router → Router) : (m.updR r f).sh = m.sh := rfl
@[simp] theorem Mach.updR_nis (m : Mach) (r : Nat) (f : Router → Router) : (m.updR r f).nis = m.nis := rfl
@[simp] theorem Mach.updR_engines (m : Mach) (r : Nat) (f : Router → Router) : (m.updR r f).engines = m.engines := rfl
@[simp] theorem Mach.updR_ports (m : Mach) (r : Nat) (f : Router → Router) : (m.updR r f).ports = m.ports := rfl
@[simp] theorem Mach.updR_domains (m : Mach) (r : Nat) (f : Router → Router) : (m.updR r f).domains = m.domains := rfl
@[simp] theorem Mach.updR_prk (m : Mach) (r : Nat) (f : Router → Router) : (m.updR r f).prk = m.prk := rfl
@[simp] theorem Mach.updR_logs (m : Mach) (r : Nat) (f : Router → Router) : (m.updR r f).logs = m.logs := rfl
@[simp] theorem Mach.updR_hw (m : Mach) (r : Nat) (f : Router → Router) : (m.updR r f).hw = m.hw := rfl
@[simp] theorem Mach.updR_timers (m : Mach) (r : Nat) (f : Router → Router) : (m.updR r f).timers = m.timers := rfl
@[simp] theorem Mach.updR_wires (m : Mach) (r : Nat) (f : Router → Router) : (m.updR r f).wires = m.wires := rfl
@[simp] theorem Mach.updR_fresh (m : Mach) (r : Nat) (f : Router → Router) : (m.updR r f).fresh = m.fresh := rfl
@[simp] theorem Mach.updR_out (m : Mach) (r : Nat) (f : Router → Router) : (m.updR r f).out = m.out := rfl

/-! ### updN -/

@[simp] theorem Mach.updN_regs (m : Mach) (l : Nat) (f : Ni → Ni) : (m.updN l f).regs = m.regs := rfl
@[simp] theorem Mach.updN_inForce (m : Mach) (l : Nat) (f : Ni → Ni) : (m.updN l f).inForce = m.inForce := rfl
@[simp] theorem Mach.updN_time (m : Mach) (l : Nat) (f : Ni → Ni) : (m.updN l f).time = m.time := rfl
@[simp] theorem Mach.updN_sh (m : Mach) (l : Nat) (f : Ni → Ni) : (m.updN l f).sh = m.sh := rfl
@[simp] theorem Mach.updN_routers (m : Mach) (l : Nat) (f : Ni → Ni) : (m.updN l f).routers = m.routers := rfl
@[simp] theorem Mach.updN_engines (m : Mach) (l : Nat) (f : Ni → Ni) : (m.updN l f).engines = m.engines := rfl
@[simp] theorem Mach.updN_ports (m : Mach) (l : Nat) (f : Ni → Ni) : (m.updN l f).ports = m.ports := rfl
@[simp] theorem Mach.updN_domains (m : Mach) (l : Nat) (f : Ni → Ni) : (m.updN l f).domains = m.domains := rfl
@[simp] theorem Mach.updN_prk (m : Mach) (l : Nat) (f : Ni → Ni) : (m.updN l f).prk = m.prk := rfl
@[simp] theorem Mach.updN_logs (m : Mach) (l : Nat) (f : Ni → Ni) : (m.updN l f).logs = m.logs := rfl
@[simp] theorem Mach.updN_hw (m : Mach) (l : Nat) (f : Ni → Ni) : (m.updN l f).hw = m.hw := rfl
@[simp] theorem Mach.updN_timers (m : Mach) (l : Nat) (f : Ni → Ni) : (m.updN l f).timers = m.timers := rfl
@[simp] theorem Mach.updN_wires (m : Mach) (l : Nat) (f : Ni → Ni) : (m.updN l f).wires = m.wires := rfl
@[simp] theorem Mach.updN_fresh (m : Mach) (l : Nat) (f : Ni → Ni) : (m.updN l f).fresh = m.fresh := rfl
@[simp] theorem Mach.updN_out (m : Mach) (l : Nat) (f : Ni → Ni) : (m.updN l f).out = m.out := rfl

/-! ### updE -/

@[simp] theorem Mach.updE_regs (m : Mach) (i : Nat) (f : Engine → Engine) : (m.updE i f).regs = m.regs := rfl
@[simp] theorem Mach.updE_inForce (m : Mach) (i : Nat) (f : Engine → Engine) : (m.updE i f).inForce = m.inForce := rfl
@[simp] theorem Mach.updE_time (m : Mach) (i : Nat) (f : Engine → Engine) : (m.updE i f).time = m.time := rfl
@[simp] theorem Mach.updE_sh (m : Mach) (i : Nat) (f : Engine → Engine) : (m.updE i f).sh = m.sh := rfl
@[simp] theorem Mach.updE_routers (m : Mach) (i : Nat) (f : Engine → Engine) : (m.updE i f).routers = m.routers := rfl
@[simp] theorem Mach.updE_nis (m : Mach) (i : Nat) (f : Engine → Engine) : (m.updE i f).nis = m.nis := rfl
@[simp] theorem Mach.updE_ports (m : Mach) (i : Nat) (f : Engine → Engine) : (m.updE i f).ports = m.ports := rfl
@[simp] theorem Mach.updE_domains (m : Mach) (i : Nat) (f : Engine → Engine) : (m.updE i f).domains = m.domains := rfl
@[simp] theorem Mach.updE_prk (m : Mach) (i : Nat) (f : Engine → Engine) : (m.updE i f).prk = m.prk := rfl
@[simp] theorem Mach.updE_logs (m : Mach) (i : Nat) (f : Engine → Engine) : (m.updE i f).logs = m.logs := rfl
@[simp] theorem Mach.updE_hw (m : Mach) (i : Nat) (f : Engine → Engine) : (m.updE i f).hw = m.hw := rfl
@[simp] theorem Mach.updE_timers (m : Mach) (i : Nat) (f : Engine → Engine) : (m.updE i f).timers = m.timers := rfl
@[simp] theorem Mach.updE_wires (m : Mach) (i : Nat) (f : Engine → Engine) : (m.updE i f).wires = m.wires := rfl
@[simp] theorem Mach.updE_fresh (m : Mach) (i : Nat) (f : Engine → Engine) : (m.updE i f).fresh = m.fresh := rfl
@[simp] theorem Mach.updE_out (m : Mach) (i : Nat) (f : Engine → Engine) : (m.updE i f).out = m.out := rfl

/-! ### updP -/

@[simp] theorem Mach.updP_regs (m : Mach) (p : Nat) (f : Port → Port) : (m.updP p f).regs = m.regs := rfl
@[simp] theorem Mach.updP_inForce (m : Mach) (p : Nat) (f : Port → Port) : (m.updP p f).inForce = m.inForce := rfl
@[simp] theorem Mach.updP_time (m : Mach) (p : Nat) (f : Port → Port) : (m.updP p f).time = m.time := rfl
@[simp] theorem Mach.updP_sh (m : Mach) (p : Nat) (f : Port → Port) : (m.updP p f).sh = m.sh := rfl
@[simp] theorem Mach.updP_routers (m : Mach) (p : Nat) (f : Port → Port) : (m.updP p f).routers = m.routers := rfl
@[simp] theorem Mach.updP_nis (m : Mach) (p : Nat) (f : Port → Port) : (m.updP p f).nis = m.nis := rfl
@[simp] theorem Mach.updP_engines (m : Mach) (p : Nat) (f : Port → Port) : (m.updP p f).engines = m.engines := rfl
@[simp] theorem Mach.updP_domains (m : Mach) (p : Nat) (f : Port → Port) : (m.updP p f).domains = m.domains := rfl
@[simp] theorem Mach.updP_prk (m : Mach) (p : Nat) (f : Port → Port) : (m.updP p f).prk = m.prk := rfl
@[simp] theorem Mach.updP_logs (m : Mach) (p : Nat) (f : Port → Port) : (m.updP p f).logs = m.logs := rfl
@[simp] theorem Mach.updP_hw (m : Mach) (p : Nat) (f : Port → Port) : (m.updP p f).hw = m.hw := rfl
@[simp] theorem Mach.updP_timers (m : Mach) (p : Nat) (f : Port → Port) : (m.updP p f).timers = m.timers := rfl
@[simp] theorem Mach.updP_wires (m : Mach) (p : Nat) (f : Port → Port) : (m.updP p f).wires = m.wires := rfl
@[simp] theorem Mach.updP_fresh (m : Mach) (p : Nat) (f : Port → Port) : (m.updP p f).fresh = m.fresh := rfl
@[simp] theorem Mach.updP_out (m : Mach) (p : Nat) (f : Port → Port) : (m.updP p f).out = m.out := rfl

/-! ### updD -/

@[simp] theorem Mach.updD_regs (m : Mach) (d : Nat) (f : Domain → Domain) : (m.updD d f).regs = m.regs := rfl
@[simp] theorem Mach.updD_inForce (m : Mach) (d : Nat) (f : Domain → Domain) : (m.updD d f).inForce = m.inForce := rfl
@[simp] theorem Mach.updD_time (m : Mach) (d : Nat) (f : Domain → Domain) : (m.updD d f).time = m.time := rfl
@[simp] theorem Mach.updD_sh (m : Mach) (d : Nat) (f : Domain → Domain) : (m.updD d f).sh = m.sh := rfl
@[simp] theorem Mach.updD_routers (m : Mach) (d : Nat) (f : Domain → Domain) : (m.updD d f).routers = m.routers := rfl
@[simp] theorem Mach.updD_nis (m : Mach) (d : Nat) (f : Domain → Domain) : (m.updD d f).nis = m.nis := rfl
@[simp] theorem Mach.updD_engines (m : Mach) (d : Nat) (f : Domain → Domain) : (m.updD d f).engines = m.engines := rfl
@[simp] theorem Mach.updD_ports (m : Mach) (d : Nat) (f : Domain → Domain) : (m.updD d f).ports = m.ports := rfl
@[simp] theorem Mach.updD_prk (m : Mach) (d : Nat) (f : Domain → Domain) : (m.updD d f).prk = m.prk := rfl
@[simp] theorem Mach.updD_logs (m : Mach) (d : Nat) (f : Domain → Domain) : (m.updD d f).logs = m.logs := rfl
@[simp] theorem Mach.updD_hw (m : Mach) (d : Nat) (f : Domain → Domain) : (m.updD d f).hw = m.hw := rfl
@[simp] theorem Mach.updD_timers (m : Mach) (d : Nat) (f : Domain → Domain) : (m.updD d f).timers = m.timers := rfl
@[simp] theorem Mach.updD_wires (m : Mach) (d : Nat) (f : Domain → Domain) : (m.updD d f).wires = m.wires := rfl
@[simp] theorem Mach.updD_fresh (m : Mach) (d : Nat) (f : Domain → Domain) : (m.updD d f).fresh = m.fresh := rfl
@[simp] theorem Mach.updD_out (m : Mach) (d : Nat) (f : Domain → Domain) : (m.updD d f).out = m.out := rfl

/-! ### updSh -/

@[simp] theorem Mach.updSh_regs (m : Mach) (f : Shuttle → Shuttle) : (m.updSh f).regs = m.regs := rfl
@[simp] theorem Mach.updSh_inForce (m : Mach) (f : Shuttle → Shuttle) : (m.updSh f).inForce = m.inForce := rfl
@[simp] theorem Mach.updSh_time (m : Mach) (f : Shuttle → Shuttle) : (m.updSh f).time = m.time := rfl
@[simp] theorem Mach.updSh_routers (m : Mach) (f : Shuttle → Shuttle) : (m.updSh f).routers = m.routers := rfl
@[simp] theorem Mach.updSh_nis (m : Mach) (f : Shuttle → Shuttle) : (m.updSh f).nis = m.nis := rfl
@[simp] theorem Mach.updSh_engines (m : Mach) (f : Shuttle → Shuttle) : (m.updSh f).engines = m.engines := rfl
@[simp] theorem Mach.updSh_ports (m : Mach) (f : Shuttle → Shuttle) : (m.updSh f).ports = m.ports := rfl
@[simp] theorem Mach.updSh_domains (m : Mach) (f : Shuttle → Shuttle) : (m.updSh f).domains = m.domains := rfl
@[simp] theorem Mach.updSh_prk (m : Mach) (f : Shuttle → Shuttle) : (m.updSh f).prk = m.prk := rfl
@[simp] theorem Mach.updSh_logs (m : Mach) (f : Shuttle → Shuttle) : (m.updSh f).logs = m.logs := rfl
@[simp] theorem Mach.updSh_hw (m : Mach) (f : Shuttle → Shuttle) : (m.updSh f).hw = m.hw := rfl
@[simp] theorem Mach.updSh_timers (m : Mach) (f : Shuttle → Shuttle) : (m.updSh f).timers = m.timers := rfl
@[simp] theorem Mach.updSh_wires (m : Mach) (f : Shuttle → Shuttle) : (m.updSh f).wires = m.wires := rfl
@[simp] theorem Mach.updSh_fresh (m : Mach) (f : Shuttle → Shuttle) : (m.updSh f).fresh = m.fresh := rfl
@[simp] theorem Mach.updSh_out (m : Mach) (f : Shuttle → Shuttle) : (m.updSh f).out = m.out := rfl

/-! ### updT -/

@[simp] theorem Mach.updT_regs (m : Mach) (f : TimeSt → TimeSt) : (m.updT f).regs = m.regs := rfl
@[simp] theorem Mach.updT_inForce (m : Mach) (f : TimeSt → TimeSt) : (m.updT f).inForce = m.inForce := rfl
@[simp] theorem Mach.updT_sh (m : Mach) (f : TimeSt → TimeSt) : (m.updT f).sh = m.sh := rfl
@[simp] theorem Mach.updT_routers (m : Mach) (f : TimeSt → TimeSt) : (m.updT f).routers = m.routers := rfl
@[simp] theorem Mach.updT_nis (m : Mach) (f : TimeSt → TimeSt) : (m.updT f).nis = m.nis := rfl
@[simp] theorem Mach.updT_engines (m : Mach) (f : TimeSt → TimeSt) : (m.updT f).engines = m.engines := rfl
@[simp] theorem Mach.updT_ports (m : Mach) (f : TimeSt → TimeSt) : (m.updT f).ports = m.ports := rfl
@[simp] theorem Mach.updT_domains (m : Mach) (f : TimeSt → TimeSt) : (m.updT f).domains = m.domains := rfl
@[simp] theorem Mach.updT_prk (m : Mach) (f : TimeSt → TimeSt) : (m.updT f).prk = m.prk := rfl
@[simp] theorem Mach.updT_logs (m : Mach) (f : TimeSt → TimeSt) : (m.updT f).logs = m.logs := rfl
@[simp] theorem Mach.updT_hw (m : Mach) (f : TimeSt → TimeSt) : (m.updT f).hw = m.hw := rfl
@[simp] theorem Mach.updT_timers (m : Mach) (f : TimeSt → TimeSt) : (m.updT f).timers = m.timers := rfl
@[simp] theorem Mach.updT_wires (m : Mach) (f : TimeSt → TimeSt) : (m.updT f).wires = m.wires := rfl
@[simp] theorem Mach.updT_fresh (m : Mach) (f : TimeSt → TimeSt) : (m.updT f).fresh = m.fresh := rfl
@[simp] theorem Mach.updT_out (m : Mach) (f : TimeSt → TimeSt) : (m.updT f).out = m.out := rfl

/-! ### updEp -/

@[simp] theorem Mach.updEp_regs (m : Mach) (l : Nat) (f : Ep → Ep) : (m.updEp l f).regs = m.regs := rfl
@[simp] theorem Mach.updEp_inForce (m : Mach) (l : Nat) (f : Ep → Ep) : (m.updEp l f).inForce = m.inForce := rfl
@[simp] theorem Mach.updEp_time (m : Mach) (l : Nat) (f : Ep → Ep) : (m.updEp l f).time = m.time := rfl
@[simp] theorem Mach.updEp_sh (m : Mach) (l : Nat) (f : Ep → Ep) : (m.updEp l f).sh = m.sh := rfl
@[simp] theorem Mach.updEp_routers (m : Mach) (l : Nat) (f : Ep → Ep) : (m.updEp l f).routers = m.routers := rfl
@[simp] theorem Mach.updEp_engines (m : Mach) (l : Nat) (f : Ep → Ep) : (m.updEp l f).engines = m.engines := rfl
@[simp] theorem Mach.updEp_ports (m : Mach) (l : Nat) (f : Ep → Ep) : (m.updEp l f).ports = m.ports := rfl
@[simp] theorem Mach.updEp_domains (m : Mach) (l : Nat) (f : Ep → Ep) : (m.updEp l f).domains = m.domains := rfl
@[simp] theorem Mach.updEp_prk (m : Mach) (l : Nat) (f : Ep → Ep) : (m.updEp l f).prk = m.prk := rfl
@[simp] theorem Mach.updEp_logs (m : Mach) (l : Nat) (f : Ep → Ep) : (m.updEp l f).logs = m.logs := rfl
@[simp] theorem Mach.updEp_hw (m : Mach) (l : Nat) (f : Ep → Ep) : (m.updEp l f).hw = m.hw := rfl
@[simp] theorem Mach.updEp_timers (m : Mach) (l : Nat) (f : Ep → Ep) : (m.updEp l f).timers = m.timers := rfl
@[simp] theorem Mach.updEp_wires (m : Mach) (l : Nat) (f : Ep → Ep) : (m.updEp l f).wires = m.wires := rfl
@[simp] theorem Mach.updEp_fresh (m : Mach) (l : Nat) (f : Ep → Ep) : (m.updEp l f).fresh = m.fresh := rfl
@[simp] theorem Mach.updEp_out (m : Mach) (l : Nat) (f : Ep → Ep) : (m.updEp l f).out = m.out := rfl

/-! ### updTx -/

@[simp] theorem Mach.updTx_regs (m : Mach) (l : Nat) (f : Tx → Tx) : (m.updTx l f).regs = m.regs := rfl
@[simp] theorem Mach.updTx_inForce (m : Mach) (l : Nat) (f : Tx → Tx) : (m.updTx l f).inForce = m.inForce := rfl
@[simp] theorem Mach.updTx_time (m : Mach) (l : Nat) (f : Tx → Tx) : (m.updTx l f).time = m.time := rfl
@[simp] theorem Mach.updTx_sh (m : Mach) (l : Nat) (f : Tx → Tx) : (m.updTx l f).sh = m.sh := rfl
@[simp] theorem Mach.updTx_routers (m : Mach) (l : Nat) (f : Tx → Tx) : (m.updTx l f).routers = m.routers := rfl
@[simp] theorem Mach.updTx_engines (m : Mach) (l : Nat) (f : Tx → Tx) : (m.updTx l f).engines = m.engines := rfl
@[simp] theorem Mach.updTx_ports (m : Mach) (l : Nat) (f : Tx → Tx) : (m.updTx l f).ports = m.ports := rfl
@[simp] theorem Mach.updTx_domains (m : Mach) (l : Nat) (f : Tx → Tx) : (m.updTx l f).domains = m.domains := rfl
@[simp] theorem Mach.updTx_prk (m : Mach) (l : Nat) (f : Tx → Tx) : (m.updTx l f).prk = m.prk := rfl
@[simp] theorem Mach.updTx_logs (m : Mach) (l : Nat) (f : Tx → Tx) : (m.updTx l f).logs = m.logs := rfl
@[simp] theorem Mach.updTx_hw (m : Mach) (l : Nat) (f : Tx → Tx) : (m.updTx l f).hw = m.hw := rfl
@[simp] theorem Mach.updTx_timers (m : Mach) (l : Nat) (f : Tx → Tx) : (m.updTx l f).timers = m.timers := rfl
@[simp] theorem Mach.updTx_wires (m : Mach) (l : Nat) (f : Tx → Tx) : (m.updTx l f).wires = m.wires := rfl
@[simp] theorem Mach.updTx_fresh (m : Mach) (l : Nat) (f : Tx → Tx) : (m.updTx l f).fresh = m.fresh := rfl
@[simp] theorem Mach.updTx_out (m : Mach) (l : Nat) (f : Tx → Tx) : (m.updTx l f).out = m.out := rfl

/-! ### updTab -/

@[simp] theorem Mach.updTab_regs (m : Mach) (l : Nat) (f : NiTab → NiTab) : (m.updTab l f).regs = m.regs := rfl
@[simp] theorem Mach.updTab_inForce (m : Mach) (l : Nat) (f : NiTab → NiTab) : (m.updTab l f).inForce = m.inForce := rfl
@[simp] theorem Mach.updTab_time (m : Mach) (l : Nat) (f : NiTab → NiTab) : (m.updTab l f).time = m.time := rfl
@[simp] theorem Mach.updTab_sh (m : Mach) (l : Nat) (f : NiTab → NiTab) : (m.updTab l f).sh = m.sh := rfl
@[simp] theorem Mach.updTab_routers (m : Mach) (l : Nat) (f : NiTab → NiTab) : (m.updTab l f).routers = m.routers := rfl
@[simp] theorem Mach.updTab_engines (m : Mach) (l : Nat) (f : NiTab → NiTab) : (m.updTab l f).engines = m.engines := rfl
@[simp] theorem Mach.updTab_ports (m : Mach) (l : Nat) (f : NiTab → NiTab) : (m.updTab l f).ports = m.ports := rfl
@[simp] theorem Mach.updTab_domains (m : Mach) (l : Nat) (f : NiTab → NiTab) : (m.updTab l f).domains = m.domains := rfl
@[simp] theorem Mach.updTab_prk (m : Mach) (l : Nat) (f : NiTab → NiTab) : (m.updTab l f).prk = m.prk := rfl
@[simp] theorem Mach.updTab_logs (m : Mach) (l : Nat) (f : NiTab → NiTab) : (m.updTab l f).logs = m.logs := rfl
@[simp] theorem Mach.updTab_hw (m : Mach) (l : Nat) (f : NiTab → NiTab) : (m.updTab l f).hw = m.hw := rfl
@[simp] theorem Mach.updTab_timers (m : Mach) (l : Nat) (f : NiTab → NiTab) : (m.updTab l f).timers = m.timers := rfl
@[simp] theorem Mach.updTab_wires (m : Mach) (l : Nat) (f : NiTab → NiTab) : (m.updTab l f).wires = m.wires := rfl
@[simp] theorem Mach.updTab_fresh (m : Mach) (l : Nat) (f : NiTab → NiTab) : (m.updTab l f).fresh = m.fresh := rfl
@[simp] theorem Mach.updTab_out (m : Mach) (l : Nat) (f : NiTab → NiTab) : (m.updTab l f).out = m.out := rfl

/-! ### updRx -/

@[simp] theorem Mach.updRx_regs (m : Mach) (l : Nat) (f : Rx → Rx) : (m.updRx l f).regs = m.regs := rfl
@[simp] theorem Mach.updRx_inForce (m : Mach) (l : Nat) (f : Rx → Rx) : (m.updRx l f).inForce = m.inForce := rfl
@[simp] theorem Mach.updRx_time (m : Mach) (l : Nat) (f : Rx → Rx) : (m.updRx l f).time = m.time := rfl
@[simp] theorem Mach.updRx_sh (m : Mach) (l : Nat) (f : Rx → Rx) : (m.updRx l f).sh = m.sh := rfl
@[simp] theorem Mach.updRx_routers (m : Mach) (l : Nat) (f : Rx → Rx) : (m.updRx l f).routers = m.routers := rfl
@[simp] theorem Mach.updRx_engines (m : Mach) (l : Nat) (f : Rx → Rx) : (m.updRx l f).engines = m.engines := rfl
@[simp] theorem Mach.updRx_ports (m : Mach) (l : Nat) (f : Rx → Rx) : (m.updRx l f).ports = m.ports := rfl
@[simp] theorem Mach.updRx_domains (m : Mach) (l : Nat) (f : Rx → Rx) : (m.updRx l f).domains = m.domains := rfl
@[simp] theorem Mach.updRx_prk (m : Mach) (l : Nat) (f : Rx → Rx) : (m.updRx l f).prk = m.prk := rfl
@[simp] theorem Mach.updRx_logs (m : Mach) (l : Nat) (f : Rx → Rx) : (m.updRx l f).logs = m.logs := rfl
@[simp] theorem Mach.updRx_hw (m : Mach) (l : Nat) (f : Rx → Rx) : (m.updRx l f).hw = m.hw := rfl
@[simp] theorem Mach.updRx_timers (m : Mach) (l : Nat) (f : Rx → Rx) : (m.updRx l f).timers = m.timers := rfl
@[simp] theorem Mach.updRx_wires (m : Mach) (l : Nat) (f : Rx → Rx) : (m.updRx l f).wires = m.wires := rfl
@[simp] theorem Mach.updRx_fresh (m : Mach) (l : Nat) (f : Rx → Rx) : (m.updRx l f).fresh = m.fresh := rfl
@[simp] theorem Mach.updRx_out (m : Mach) (l : Nat) (f : Rx → Rx) : (m.updRx l f).out = m.out := rfl

/-! ### updVp -/

@[simp] theorem Mach.updVp_regs (m : Mach) (l v : Nat) (f : Vp → Vp) : (m.updVp l v f).regs = m.regs := rfl
@[simp] theorem Mach.updVp_inForce (m : Mach) (l v : Nat) (f : Vp → Vp) : (m.updVp l v f).inForce = m.inForce := rfl
@[simp] theorem Mach.updVp_time (m : Mach) (l v : Nat) (f : Vp → Vp) : (m.updVp l v f).time = m.time := rfl
@[simp] theorem Mach.updVp_sh (m : Mach) (l v : Nat) (f : Vp → Vp) : (m.updVp l v f).sh = m.sh := rfl
@[simp] theorem Mach.updVp_routers (m : Mach) (l v : Nat) (f : Vp → Vp) : (m.updVp l v f).routers = m.routers := rfl
@[simp] theorem Mach.updVp_engines (m : Mach) (l v : Nat) (f : Vp → Vp) : (m.updVp l v f).engines = m.engines := rfl
@[simp] theorem Mach.updVp_ports (m : Mach) (l v : Nat) (f : Vp → Vp) : (m.updVp l v f).ports = m.ports := rfl
@[simp] theorem Mach.updVp_domains (m : Mach) (l v : Nat) (f : Vp → Vp) : (m.updVp l v f).domains = m.domains := rfl
@[simp] theorem Mach.updVp_prk (m : Mach) (l v : Nat) (f : Vp → Vp) : (m.updVp l v f).prk = m.prk := rfl
@[simp] theorem Mach.updVp_logs (m : Mach) (l v : Nat) (f : Vp → Vp) : (m.updVp l v f).logs = m.logs := rfl
@[simp] theorem Mach.updVp_hw (m : Mach) (l v : Nat) (f : Vp → Vp) : (m.updVp l v f).hw = m.hw := rfl
@[simp] theorem Mach.updVp_timers (m : Mach) (l v : Nat) (f : Vp → Vp) : (m.updVp l v f).timers = m.timers := rfl
@[simp] theorem Mach.updVp_wires (m : Mach) (l v : Nat) (f : Vp → Vp) : (m.updVp l v f).wires = m.wires := rfl
@[simp] theorem Mach.updVp_fresh (m : Mach) (l v : Nat) (f : Vp → Vp) : (m.updVp l v f).fresh = m.fresh := rfl
@[simp] theorem Mach.updVp_out (m : Mach) (l v : Nat) (f : Vp → Vp) : (m.updVp l v f).out = m.out := rfl

/-! ### updIn -/

@[simp] theorem Mach.updIn_regs (m : Mach) (r p : Nat) (f : InPort → InPort) : (m.updIn r p f).regs = m.regs := rfl
@[simp] theorem Mach.updIn_inForce (m : Mach) (r p : Nat) (f : InPort → InPort) : (m.updIn r p f).inForce = m.inForce := rfl
@[simp] theorem Mach.updIn_time (m : Mach) (r p : Nat) (f : InPort → InPort) : (m.updIn r p f).time = m.time := rfl
@[simp] theorem Mach.updIn_sh (m : Mach) (r p : Nat) (f : InPort → InPort) : (m.updIn r p f).sh = m.sh := rfl
@[simp] theorem Mach.updIn_nis (m : Mach) (r p : Nat) (f : InPort → InPort) : (m.updIn r p f).nis = m.nis := rfl
@[simp] theorem Mach.updIn_engines (m : Mach) (r p : Nat) (f : InPort → InPort) : (m.updIn r p f).engines = m.engines := rfl
@[simp] theorem Mach.updIn_ports (m : Mach) (r p : Nat) (f : InPort → InPort) : (m.updIn r p f).ports = m.ports := rfl
@[simp] theorem Mach.updIn_domains (m : Mach) (r p : Nat) (f : InPort → InPort) : (m.updIn r p f).domains = m.domains := rfl
@[simp] theorem Mach.updIn_prk (m : Mach) (r p : Nat) (f : InPort → InPort) : (m.updIn r p f).prk = m.prk := rfl
@[simp] theorem Mach.updIn_logs (m : Mach) (r p : Nat) (f : InPort → InPort) : (m.updIn r p f).logs = m.logs := rfl
@[simp] theorem Mach.updIn_hw (m : Mach) (r p : Nat) (f : InPort → InPort) : (m.updIn r p f).hw = m.hw := rfl
@[simp] theorem Mach.updIn_timers (m : Mach) (r p : Nat) (f : InPort → InPort) : (m.updIn r p f).timers = m.timers := rfl
@[simp] theorem Mach.updIn_wires (m : Mach) (r p : Nat) (f : InPort → InPort) : (m.updIn r p f).wires = m.wires := rfl
@[simp] theorem Mach.updIn_fresh (m : Mach) (r p : Nat) (f : InPort → InPort) : (m.updIn r p f).fresh = m.fresh := rfl
@[simp] theorem Mach.updIn_out (m : Mach) (r p : Nat) (f : InPort → InPort) : (m.updIn r p f).out = m.out := rfl

/-! ### updOut -/

@[simp] theorem Mach.updOut_regs (m : Mach) (r p : Nat) (f : OutPort → OutPort) : (m.updOut r p f).regs = m.regs := rfl
@[simp] theorem Mach.updOut_inForce (m : Mach) (r p : Nat) (f : OutPort → OutPort) : (m.updOut r p f).inForce = m.inForce := rfl
@[simp] theorem Mach.updOut_time (m : Mach) (r p : Nat) (f : OutPort → OutPort) : (m.updOut r p f).time = m.time := rfl
@[simp] theorem Mach.updOut_sh (m : Mach) (r p : Nat) (f : OutPort → OutPort) : (m.updOut r p f).sh = m.sh := rfl
@[simp] theorem Mach.updOut_nis (m : Mach) (r p : Nat) (f : OutPort → OutPort) : (m.updOut r p f).nis = m.nis := rfl
@[simp] theorem Mach.updOut_engines (m : Mach) (r p : Nat) (f : OutPort → OutPort) : (m.updOut r p f).engines = m.engines := rfl
@[simp] theorem Mach.updOut_ports (m : Mach) (r p : Nat) (f : OutPort → OutPort) : (m.updOut r p f).ports = m.ports := rfl
@[simp] theorem Mach.updOut_domains (m : Mach) (r p : Nat) (f : OutPort → OutPort) : (m.updOut r p f).domains = m.domains := rfl
@[simp] theorem Mach.updOut_prk (m : Mach) (r p : Nat) (f : OutPort → OutPort) : (m.updOut r p f).prk = m.prk := rfl
@[simp] theorem Mach.updOut_logs (m : Mach) (r p : Nat) (f : OutPort → OutPort) : (m.updOut r p f).logs = m.logs := rfl
@[simp] theorem Mach.updOut_hw (m : Mach) (r p : Nat) (f : OutPort → OutPort) : (m.updOut r p f).hw = m.hw := rfl
@[simp] theorem Mach.updOut_timers (m : Mach) (r p : Nat) (f : OutPort → OutPort) : (m.updOut r p f).timers = m.timers := rfl
@[simp] theorem Mach.updOut_wires (m : Mach) (r p : Nat) (f : OutPort → OutPort) : (m.updOut r p f).wires = m.wires := rfl
@[simp] theorem Mach.updOut_fresh (m : Mach) (r p : Nat) (f : OutPort → OutPort) : (m.updOut r p f).fresh = m.fresh := rfl
@[simp] theorem Mach.updOut_out (m : Mach) (r p : Nat) (f : OutPort → OutPort) : (m.updOut r p f).out = m.out := rfl

/-! ### updC -/

@[simp] theorem Mach.updC_regs (m : Mach) (p c : Nat) (f : Chan → Chan) : (m.updC p c f).regs = m.regs := rfl
@[simp] theorem Mach.updC_inForce (m : Mach) (p c : Nat) (f : Chan → Chan) : (m.updC p c f).inForce = m.inForce := rfl
@[simp] theorem Mach.updC_time (m : Mach) (p c : Nat) (f : Chan → Chan) : (m.updC p c f).time = m.time := rfl
@[simp] theorem Mach.updC_sh (m : Mach) (p c : Nat) (f : Chan → Chan) : (m.updC p c f).sh = m.sh := rfl
@[simp] theorem Mach.updC_routers (m : Mach) (p c : Nat) (f : Chan → Chan) : (m.updC p c f).routers = m.routers := rfl
@[simp] theorem Mach.updC_nis (m : Mach) (p c : Nat) (f : Chan → Chan) : (m.updC p c f).nis = m.nis := rfl
@[simp] theorem Mach.updC_engines (m : Mach) (p c : Nat) (f : Chan → Chan) : (m.updC p c f).engines = m.engines := rfl
@[simp] theorem Mach.updC_domains (m : Mach) (p c : Nat) (f : Chan → Chan) : (m.updC p c f).domains = m.domains := rfl
@[simp] theorem Mach.updC_prk (m : Mach) (p c : Nat) (f : Chan → Chan) : (m.updC p c f).prk = m.prk := rfl
@[simp] theorem Mach.updC_logs (m : Mach) (p c : Nat) (f : Chan → Chan) : (m.updC p c f).logs = m.logs := rfl
@[simp] theorem Mach.updC_hw (m : Mach) (p c : Nat) (f : Chan → Chan) : (m.updC p c f).hw = m.hw := rfl
@[simp] theorem Mach.updC_timers (m : Mach) (p c : Nat) (f : Chan → Chan) : (m.updC p c f).timers = m.timers := rfl
@[simp] theorem Mach.updC_wires (m : Mach) (p c : Nat) (f : Chan → Chan) : (m.updC p c f).wires = m.wires := rfl
@[simp] theorem Mach.updC_fresh (m : Mach) (p c : Nat) (f : Chan → Chan) : (m.updC p c f).fresh = m.fresh := rfl
@[simp] theorem Mach.updC_out (m : Mach) (p c : Nat) (f : Chan → Chan) : (m.updC p c f).out = m.out := rfl

/-! ### updCtx -/

@[simp] theorem Mach.updCtx_regs (m : Mach) (i c : Nat) (f : Ctx → Ctx) : (m.updCtx i c f).regs = m.regs := rfl
@[simp] theorem Mach.updCtx_inForce (m : Mach) (i c : Nat) (f : Ctx → Ctx) : (m.updCtx i c f).inForce = m.inForce := rfl
@[simp] theorem Mach.updCtx_time (m : Mach) (i c : Nat) (f : Ctx → Ctx) : (m.updCtx i c f).time = m.time := rfl
@[simp] theorem Mach.updCtx_sh (m : Mach) (i c : Nat) (f : Ctx → Ctx) : (m.updCtx i c f).sh = m.sh := rfl
@[simp] theorem Mach.updCtx_routers (m : Mach) (i c : Nat) (f : Ctx → Ctx) : (m.updCtx i c f).routers = m.routers := rfl
@[simp] theorem Mach.updCtx_nis (m : Mach) (i c : Nat) (f : Ctx → Ctx) : (m.updCtx i c f).nis = m.nis := rfl
@[simp] theorem Mach.updCtx_ports (m : Mach) (i c : Nat) (f : Ctx → Ctx) : (m.updCtx i c f).ports = m.ports := rfl
@[simp] theorem Mach.updCtx_domains (m : Mach) (i c : Nat) (f : Ctx → Ctx) : (m.updCtx i c f).domains = m.domains := rfl
@[simp] theorem Mach.updCtx_prk (m : Mach) (i c : Nat) (f : Ctx → Ctx) : (m.updCtx i c f).prk = m.prk := rfl
@[simp] theorem Mach.updCtx_logs (m : Mach) (i c : Nat) (f : Ctx → Ctx) : (m.updCtx i c f).logs = m.logs := rfl
@[simp] theorem Mach.updCtx_hw (m : Mach) (i c : Nat) (f : Ctx → Ctx) : (m.updCtx i c f).hw = m.hw := rfl
@[simp] theorem Mach.updCtx_timers (m : Mach) (i c : Nat) (f : Ctx → Ctx) : (m.updCtx i c f).timers = m.timers := rfl
@[simp] theorem Mach.updCtx_wires (m : Mach) (i c : Nat) (f : Ctx → Ctx) : (m.updCtx i c f).wires = m.wires := rfl
@[simp] theorem Mach.updCtx_fresh (m : Mach) (i c : Nat) (f : Ctx → Ctx) : (m.updCtx i c f).fresh = m.fresh := rfl
@[simp] theorem Mach.updCtx_out (m : Mach) (i c : Nat) (f : Ctx → Ctx) : (m.updCtx i c f).out = m.out := rfl

/-! ### emit -/

@[simp] theorem Mach.emit_regs (m : Mach) (o : Out) : (m.emit o).regs = m.regs := rfl
@[simp] theorem Mach.emit_inForce (m : Mach) (o : Out) : (m.emit o).inForce = m.inForce := rfl
@[simp] theorem Mach.emit_time (m : Mach) (o : Out) : (m.emit o).time = m.time := rfl
@[simp] theorem Mach.emit_sh (m : Mach) (o : Out) : (m.emit o).sh = m.sh := rfl
@[simp] theorem Mach.emit_routers (m : Mach) (o : Out) : (m.emit o).routers = m.routers := rfl
@[simp] theorem Mach.emit_nis (m : Mach) (o : Out) : (m.emit o).nis = m.nis := rfl
@[simp] theorem Mach.emit_engines (m : Mach) (o : Out) : (m.emit o).engines = m.engines := rfl
@[simp] theorem Mach.emit_ports (m : Mach) (o : Out) : (m.emit o).ports = m.ports := rfl
@[simp] theorem Mach.emit_domains (m : Mach) (o : Out) : (m.emit o).domains = m.domains := rfl
@[simp] theorem Mach.emit_prk (m : Mach) (o : Out) : (m.emit o).prk = m.prk := rfl
@[simp] theorem Mach.emit_logs (m : Mach) (o : Out) : (m.emit o).logs = m.logs := rfl
@[simp] theorem Mach.emit_hw (m : Mach) (o : Out) : (m.emit o).hw = m.hw := rfl
@[simp] theorem Mach.emit_timers (m : Mach) (o : Out) : (m.emit o).timers = m.timers := rfl
@[simp] theorem Mach.emit_wires (m : Mach) (o : Out) : (m.emit o).wires = m.wires := rfl
@[simp] theorem Mach.emit_fresh (m : Mach) (o : Out) : (m.emit o).fresh = m.fresh := rfl

/-! ### setWire -/

@[simp] theorem Mach.setWire_regs (m : Mach) (e : LinkEnd) (ws : List WireFlit) : (m.setWire e ws).regs = m.regs := rfl
@[simp] theorem Mach.setWire_inForce (m : Mach) (e : LinkEnd) (ws : List WireFlit) : (m.setWire e ws).inForce = m.inForce := rfl
@[simp] theorem Mach.setWire_time (m : Mach) (e : LinkEnd) (ws : List WireFlit) : (m.setWire e ws).time = m.time := rfl
@[simp] theorem Mach.setWire_sh (m : Mach) (e : LinkEnd) (ws : List WireFlit) : (m.setWire e ws).sh = m.sh := rfl
@[simp] theorem Mach.setWire_routers (m : Mach) (e : LinkEnd) (ws : List WireFlit) : (m.setWire e ws).routers = m.routers := rfl
@[simp] theorem Mach.setWire_nis (m : Mach) (e : LinkEnd) (ws : List WireFlit) : (m.setWire e ws).nis = m.nis := rfl
@[simp] theorem Mach.setWire_engines (m : Mach) (e : LinkEnd) (ws : List WireFlit) : (m.setWire e ws).engines = m.engines := rfl
@[simp] theorem Mach.setWire_ports (m : Mach) (e : LinkEnd) (ws : List WireFlit) : (m.setWire e ws).ports = m.ports := rfl
@[simp] theorem Mach.setWire_domains (m : Mach) (e : LinkEnd) (ws : List WireFlit) : (m.setWire e ws).domains = m.domains := rfl
@[simp] theorem Mach.setWire_prk (m : Mach) (e : LinkEnd) (ws : List WireFlit) : (m.setWire e ws).prk = m.prk := rfl
@[simp] theorem Mach.setWire_logs (m : Mach) (e : LinkEnd) (ws : List WireFlit) : (m.setWire e ws).logs = m.logs := rfl
@[simp] theorem Mach.setWire_hw (m : Mach) (e : LinkEnd) (ws : List WireFlit) : (m.setWire e ws).hw = m.hw := rfl
@[simp] theorem Mach.setWire_timers (m : Mach) (e : LinkEnd) (ws : List WireFlit) : (m.setWire e ws).timers = m.timers := rfl
@[simp] theorem Mach.setWire_fresh (m : Mach) (e : LinkEnd) (ws : List WireFlit) : (m.setWire e ws).fresh = m.fresh := rfl
@[simp] theorem Mach.setWire_out (m : Mach) (e : LinkEnd) (ws : List WireFlit) : (m.setWire e ws).out = m.out := rfl

/-! ### pushWire -/

@[simp] theorem Mach.pushWire_regs (m : Mach) (e : LinkEnd) (f : Flit) : (m.pushWire e f).regs = m.regs := rfl
@[simp] theorem Mach.pushWire_inForce (m : Mach) (e : LinkEnd) (f : Flit) : (m.pushWire e f).inForce = m.inForce := rfl
@[simp] theorem Mach.pushWire_time (m : Mach) (e : LinkEnd) (f : Flit) : (m.pushWire e f).time = m.time := rfl
@[simp] theorem Mach.pushWire_sh (m : Mach) (e : LinkEnd) (f : Flit) : (m.pushWire e f).sh = m.sh := rfl
@[simp] theorem Mach.pushWire_routers (m : Mach) (e : LinkEnd) (f : Flit) : (m.pushWire e f).routers = m.routers := rfl
@[simp] theorem Mach.pushWire_nis (m : Mach) (e : LinkEnd) (f : Flit) : (m.pushWire e f).nis = m.nis := rfl
@[simp] theorem Mach.pushWire_engines (m : Mach) (e : LinkEnd) (f : Flit) : (m.pushWire e f).engines = m.engines := rfl
@[simp] theorem Mach.pushWire_ports (m : Mach) (e : LinkEnd) (f : Flit) : (m.pushWire e f).ports = m.ports := rfl
@[simp] theorem Mach.pushWire_domains (m : Mach) (e : LinkEnd) (f : Flit) : (m.pushWire e f).domains = m.domains := rfl
@[simp] theorem Mach.pushWire_prk (m : Mach) (e : LinkEnd) (f : Flit) : (m.pushWire e f).prk = m.prk := rfl
@[simp] theorem Mach.pushWire_logs (m : Mach) (e : LinkEnd) (f : Flit) : (m.pushWire e f).logs = m.logs := rfl
@[simp] theorem Mach.pushWire_hw (m : Mach) (e : LinkEnd) (f : Flit) : (m.pushWire e f).hw = m.hw := rfl
@[simp] theorem Mach.pushWire_timers (m : Mach) (e : LinkEnd) (f : Flit) : (m.pushWire e f).timers = m.timers := rfl
@[simp] theorem Mach.pushWire_fresh (m : Mach) (e : LinkEnd) (f : Flit) : (m.pushWire e f).fresh = m.fresh := rfl
@[simp] theorem Mach.pushWire_out (m : Mach) (e : LinkEnd) (f : Flit) : (m.pushWire e f).out = m.out := rfl

/-! ### sendInternal -/

@[simp] theorem Mach.sendInternal_regs (m : Mach) (l : Nat) (p : Pkt) : (m.sendInternal l p).regs = m.regs := rfl
@[simp] theorem Mach.sendInternal_inForce (m : Mach) (l : Nat) (p : Pkt) : (m.sendInternal l p).inForce = m.inForce := rfl
@[simp] theorem Mach.sendInternal_time (m : Mach) (l : Nat) (p : Pkt) : (m.sendInternal l p).time = m.time := rfl
@[simp] theorem Mach.sendInternal_sh (m : Mach) (l : Nat) (p : Pkt) : (m.sendInternal l p).sh = m.sh := rfl
@[simp] theorem Mach.sendInternal_routers (m : Mach) (l : Nat) (p : Pkt) : (m.sendInternal l p).routers = m.routers := rfl
@[simp] theorem Mach.sendInternal_engines (m : Mach) (l : Nat) (p : Pkt) : (m.sendInternal l p).engines = m.engines := rfl
@[simp] theorem Mach.sendInternal_ports (m : Mach) (l : Nat) (p : Pkt) : (m.sendInternal l p).ports = m.ports := rfl
@[simp] theorem Mach.sendInternal_domains (m : Mach) (l : Nat) (p : Pkt) : (m.sendInternal l p).domains = m.domains := rfl
@[simp] theorem Mach.sendInternal_prk (m : Mach) (l : Nat) (p : Pkt) : (m.sendInternal l p).prk = m.prk := rfl
@[simp] theorem Mach.sendInternal_logs (m : Mach) (l : Nat) (p : Pkt) : (m.sendInternal l p).logs = m.logs := rfl
@[simp] theorem Mach.sendInternal_hw (m : Mach) (l : Nat) (p : Pkt) : (m.sendInternal l p).hw = m.hw := rfl
@[simp] theorem Mach.sendInternal_timers (m : Mach) (l : Nat) (p : Pkt) : (m.sendInternal l p).timers = m.timers := rfl
@[simp] theorem Mach.sendInternal_wires (m : Mach) (l : Nat) (p : Pkt) : (m.sendInternal l p).wires = m.wires := rfl
@[simp] theorem Mach.sendInternal_fresh (m : Mach) (l : Nat) (p : Pkt) : (m.sendInternal l p).fresh = m.fresh := rfl
@[simp] theorem Mach.sendInternal_out (m : Mach) (l : Nat) (p : Pkt) : (m.sendInternal l p).out = m.out := rfl

@[simp] theorem addEvent_inForce (m : Mach) (g : Gen) (idx chain e n : Nat) : (addEvent m g idx chain e n).inForce = m.inForce := by
  unfold addEvent
  split
  · rfl
  · dsimp only
    split <;> rfl
@[simp] theorem addEvent_time (m : Mach) (g : Gen) (idx chain e n : Nat) : (addEvent m g idx chain e n).time = m.time := by
  unfold addEvent
  split
  · rfl
  · dsimp only
    split <;> rfl
@[simp] theorem addEvent_sh (m : Mach) (g : Gen) (idx chain e n : Nat) : (addEvent m g idx chain e n).sh = m.sh := by
  unfold addEvent
  split
  · rfl
  · dsimp only
    split <;> rfl
@[simp] theorem addEvent_routers (m : Mach) (g : Gen) (idx chain e n : Nat) : (addEvent m g idx chain e n).routers = m.routers := by
  unfold addEvent
  split
  · rfl
  · dsimp only
    split <;> rfl
@[simp] theorem addEvent_nis (m : Mach) (g : Gen) (idx chain e n : Nat) : (addEvent m g idx chain e n).nis = m.nis := by
  unfold addEvent
  split
  · rfl
  · dsimp only
    split <;> rfl
@[simp] theorem addEvent_engines (m : Mach) (g : Gen) (idx chain e n : Nat) : (addEvent m g idx chain e n).engines = m.engines := by
  unfold addEvent
  split
  · rfl
  · dsimp only
    split <;> rfl
@[simp] theorem addEvent_ports (m : Mach) (g : Gen) (idx chain e n : Nat) : (addEvent m g idx chain e n).ports = m.ports := by
  unfold addEvent
  split
  · rfl
  · dsimp only
    split <;> rfl
@[simp] theorem addEvent_domains (m : Mach) (g : Gen) (idx chain e n : Nat) : (addEvent m g idx chain e n).domains = m.domains := by
  unfold addEvent
  split
  · rfl
  · dsimp only
    split <;> rfl
@[simp] theorem addEvent_prk (m : Mach) (g : Gen) (idx chain e n : Nat) : (addEvent m g idx chain e n).prk = m.prk := by
  unfold addEvent
  split
  · rfl
  · dsimp only
    split <;> rfl
@[simp] theorem addEvent_logs (m : Mach) (g : Gen) (idx chain e n : Nat) : (addEvent m g idx chain e n).logs = m.logs := by
  unfold addEvent
  split
  · rfl
  · dsimp only
    split <;> rfl
@[simp] theorem addEvent_hw (m : Mach) (g : Gen) (idx chain e n : Nat) : (addEvent m g idx chain e n).hw = m.hw := by
  unfold addEvent
  split
  · rfl
  · dsimp only
    split <;> rfl
@[simp] theorem addEvent_timers (m : Mach) (g : Gen) (idx chain e n : Nat) : (addEvent m g idx chain e n).timers = m.timers := by
  unfold addEvent
  split
  · rfl
  · dsimp only
    split <;> rfl
@[simp] theorem addEvent_wires (m : Mach) (g : Gen) (idx chain e n : Nat) : (addEvent m g idx chain e n).wires = m.wires := by
  unfold addEvent
  split
  · rfl
  · dsimp only
    split <;> rfl
@[simp] theorem addEvent_fresh (m : Mach) (g : Gen) (idx chain e n : Nat) : (addEvent m g idx chain e n).fresh = m.fresh := by
  unfold addEvent
  split
  · rfl
  · dsimp only
    split <;> rfl
@[simp] theorem addEvent_out (m : Mach) (g : Gen) (idx chain e n : Nat) : (addEvent m g idx chain e n).out = m.out := by
  unfold addEvent
  split
  · rfl
  · dsimp only
    split <;> rfl

@[simp] theorem Mach.cntR_inForce (m : Mach) (g : Gen) (r e n : Nat) : (m.cntR g r e n).inForce = m.inForce := by simp [Mach.cntR]
@[simp] theorem Mach.cntR_time (m : Mach) (g : Gen) (r e n : Nat) : (m.cntR g r e n).time = m.time := by simp [Mach.cntR]
@[simp] theorem Mach.cntR_sh (m : Mach) (g : Gen) (r e n : Nat) : (m.cntR g r e n).sh = m.sh := by simp [Mach.cntR]
@[simp] theorem Mach.cntR_routers (m : Mach) (g : Gen) (r e n : Nat) : (m.cntR g r e n).routers = m.routers := by simp [Mach.cntR]
@[simp] theorem Mach.cntR_nis (m : Mach) (g : Gen) (r e n : Nat) : (m.cntR g r e n).nis = m.nis := by simp [Mach.cntR]
@[simp] theorem Mach.cntR_engines (m : Mach) (g : Gen) (r e n : Nat) : (m.cntR g r e n).engines = m.engines := by simp [Mach.cntR]
@[simp] theorem Mach.cntR_ports (m : Mach) (g : Gen) (r e n : Nat) : (m.cntR g r e n).ports = m.ports := by simp [Mach.cntR]
@[simp] theorem Mach.cntR_domains (m : Mach) (g : Gen) (r e n : Nat) : (m.cntR g r e n).domains = m.domains := by simp [Mach.cntR]
@[simp] theorem Mach.cntR_prk (m : Mach) (g : Gen) (r e n : Nat) : (m.cntR g r e n).prk = m.prk := by simp [Mach.cntR]
@[simp] theorem Mach.cntR_logs (m : Mach) (g : Gen) (r e n : Nat) : (m.cntR g r e n).logs = m.logs := by simp [Mach.cntR]
@[simp] theorem Mach.cntR_hw (m : Mach) (g : Gen) (r e n : Nat) : (m.cntR g r e n).hw = m.hw := by simp [Mach.cntR]
@[simp] theorem Mach.cntR_timers (m : Mach) (g : Gen) (r e n : Nat) : (m.cntR g r e n).timers = m.timers := by simp [Mach.cntR]
@[simp] theorem Mach.cntR_wires (m : Mach) (g : Gen) (r e n : Nat) : (m.cntR g r e n).wires = m.wires := by simp [Mach.cntR]
@[simp] theorem Mach.cntR_fresh (m : Mach) (g : Gen) (r e n : Nat) : (m.cntR g r e n).fresh = m.fresh := by simp [Mach.cntR]
@[simp] theorem Mach.cntR_out (m : Mach) (g : Gen) (r e n : Nat) : (m.cntR g r e n).out = m.out := by simp [Mach.cntR]
@[simp] theorem Mach.cntN_inForce (m : Mach) (g : Gen) (l e n : Nat) : (m.cntN g l e n).inForce = m.inForce := by
  unfold Mach.cntN
  split <;> simp
@[simp] theorem Mach.cntN_time (m : Mach) (g : Gen) (l e n : Nat) : (m.cntN g l e n).time = m.time := by
  unfold Mach.cntN
  split <;> simp
@[simp] theorem Mach.cntN_sh (m : Mach) (g : Gen) (l e n : Nat) : (m.cntN g l e n).sh = m.sh := by
  unfold Mach.cntN
  split <;> simp
@[simp] theorem Mach.cntN_routers (m : Mach) (g : Gen) (l e n : Nat) : (m.cntN g l e n).routers = m.routers := by
  unfold Mach.cntN
  split <;> simp
@[simp] theorem Mach.cntN_nis (m : Mach) (g : Gen) (l e n : Nat) : (m.cntN g l e n).nis = m.nis := by
  unfold Mach.cntN
  split <;> simp
@[simp] theorem Mach.cntN_engines (m : Mach) (g : Gen) (l e n : Nat) : (m.cntN g l e n).engines = m.engines := by
  unfold Mach.cntN
  split <;> simp
@[simp] theorem Mach.cntN_ports (m : Mach) (g : Gen) (l e n : Nat) : (m.cntN g l e n).ports = m.ports := by
  unfold Mach.cntN
  split <;> simp
@[simp] theorem Mach.cntN_domains (m : Mach) (g : Gen) (l e n : Nat) : (m.cntN g l e n).domains = m.domains := by
  unfold Mach.cntN
  split <;> simp
@[simp] theorem Mach.cntN_prk (m : Mach) (g : Gen) (l e n : Nat) : (m.cntN g l e n).prk = m.prk := by
  unfold Mach.cntN
  split <;> simp
@[simp] theorem Mach.cntN_logs (m : Mach) (g : Gen) (l e n : Nat) : (m.cntN g l e n).logs = m.logs := by
  unfold Mach.cntN
  split <;> simp
@[simp] theorem Mach.cntN_hw (m : Mach) (g : Gen) (l e n : Nat) : (m.cntN g l e n).hw = m.hw := by
  unfold Mach.cntN
  split <;> simp
@[simp] theorem Mach.cntN_timers (m : Mach) (g : Gen) (l e n : Nat) : (m.cntN g l e n).timers = m.timers := by
  unfold Mach.cntN
  split <;> simp
@[simp] theorem Mach.cntN_wires (m : Mach) (g : Gen) (l e n : Nat) : (m.cntN g l e n).wires = m.wires := by
  unfold Mach.cntN
  split <;> simp
@[simp] theorem Mach.cntN_fresh (m : Mach) (g : Gen) (l e n : Nat) : (m.cntN g l e n).fresh = m.fresh := by
  unfold Mach.cntN
  split <;> simp
@[simp] theorem Mach.cntN_out (m : Mach) (g : Gen) (l e n : Nat) : (m.cntN g l e n).out = m.out := by
  unfold Mach.cntN
  split <;> simp

/-! ### Reads of a unit after an update -/

@[simp] theorem Mach.reg_setReg_self (m : Mach) (g : Gen) (k v : Nat) : (m.setReg k v).reg g k = v := by
  simp [Mach.reg, Mach.setReg]

@[simp] theorem Mach.ni_updN_self (m : Mach) (k : Nat) (f : Ni → Ni) (h : m.nis.has k = true) :
    (m.updN k f).ni k = f (m.ni k) := Tab.getD_upd_self _ _ _ _ h

theorem Mach.ni_updN_ne (m : Mach) {k j : Nat} (f : Ni → Ni) (h : j ≠ k) : (m.updN k f).ni j = m.ni j :=
  Tab.getD_upd_ne _ _ _ h

@[simp] theorem Mach.has_updN (m : Mach) (k j : Nat) (f : Ni → Ni) : (m.updN k f).nis.has j = m.nis.has j :=
  Tab.has_upd _ _ _ _

@[simp] theorem Mach.eng_updE_self (m : Mach) (k : Nat) (f : Engine → Engine) (h : m.engines.has k = true) :
    (m.updE k f).eng k = f (m.eng k) := Tab.getD_upd_self _ _ _ _ h

theorem Mach.eng_updE_ne (m : Mach) {k j : Nat} (f : Engine → Engine) (h : j ≠ k) : (m.updE k f).eng j = m.eng j :=
  Tab.getD_upd_ne _ _ _ h

@[simp] theorem Mach.has_updE (m : Mach) (k j : Nat) (f : Engine → Engine) : (m.updE k f).engines.has j = m.engines.has j :=
  Tab.has_upd _ _ _ _

@[simp] theorem Mach.port_updP_self (m : Mach) (k : Nat) (f : Port → Port) (h : m.ports.has k = true) :
    (m.updP k f).port k = f (m.port k) := Tab.getD_upd_self _ _ _ _ h

theorem Mach.port_updP_ne (m : Mach) {k j : Nat} (f : Port → Port) (h : j ≠ k) : (m.updP k f).port j = m.port j :=
  Tab.getD_upd_ne _ _ _ h

@[simp] theorem Mach.has_updP (m : Mach) (k j : Nat) (f : Port → Port) : (m.updP k f).ports.has j = m.ports.has j :=
  Tab.has_upd _ _ _ _

@[simp] theorem Mach.dom_updD_self (m : Mach) (k : Nat) (f : Domain → Domain) (h : m.domains.has k = true) :
    (m.updD k f).dom k = f (m.dom k) := Tab.getD_upd_self _ _ _ _ h

theorem Mach.dom_updD_ne (m : Mach) {k j : Nat} (f : Domain → Domain) (h : j ≠ k) : (m.updD k f).dom j = m.dom j :=
  Tab.getD_upd_ne _ _ _ h

@[simp] theorem Mach.has_updD (m : Mach) (k j : Nat) (f : Domain → Domain) : (m.updD k f).domains.has j = m.domains.has j :=
  Tab.has_upd _ _ _ _

@[simp] theorem Mach.rt_updR_self (m : Mach) (g : Gen) (k : Nat) (f : Router → Router) (h : m.routers.has k = true) :
    (m.updR k f).rt g k = f (m.rt g k) := Tab.getD_upd_self _ _ _ _ h

theorem Mach.rt_updR_ne (m : Mach) (g : Gen) {k j : Nat} (f : Router → Router) (h : j ≠ k) :
    (m.updR k f).rt g j = m.rt g j := Tab.getD_upd_ne _ _ _ h

@[simp] theorem Mach.has_updR (m : Mach) (k j : Nat) (f : Router → Router) :
    (m.updR k f).routers.has j = m.routers.has j := Tab.has_upd _ _ _ _

/-! ### How a meaning answers -/

/-- A meaning that names no part always answers a next state. -/
theorem State.run_next (s : State) (f : Gen → Mach → Mach) : s.run f = .next { s with m := f s.gen s.m } := rfl

/-- A meaning that names a part answers a next state, changed where the part was generated. -/
theorem State.runIf_next (s : State) (b : Bool) (f : Gen → Mach → Mach) :
    s.runIf b f = .next { s with m := if b then f s.gen s.m else s.m } := by cases b <;> rfl

/-- What `State.runIf` can answer. -/
theorem State.runIf_cases {s t : State} {b : Bool} {f : Gen → Mach → Mach} (h : s.runIf b f = .next t) :
    t = { s with m := if b then f s.gen s.m else s.m } := by
  rw [State.runIf_next] at h
  exact (Host.Outcome.next.inj h).symm

/-- What `State.runPkt` can answer. -/
theorem State.runPkt_cases {s t : State} {b c : Bool} {f : Gen → Mach → Mach} (h : s.runPkt b c f = .next t) :
    (b = true → c = true) ∧ t = { s with m := if b then f s.gen s.m else s.m } := by
  cases b
  · exact ⟨(fun x => nomatch x), (Host.Outcome.next.inj h).symm⟩
  · cases c
    · cases h
    · exact ⟨fun _ => rfl, (Host.Outcome.next.inj h).symm⟩

/-- What `State.runWrite` answers: the MG_STATUS leaves, and an absent part's object is refused with nothing changed (R5). -/
theorem State.runWrite_next (s : State) (b : Bool) (f : Gen → Mach → Mach × Nat) :
    s.runWrite b f = .next { s with m := withStatus (if b then f s.gen s.m else (s.m, mgAbsent)) } := rfl

/-! ### Timers -/

@[simp] theorem Mach.deadline_startTimer (m : Mach) (t : Timer) (len : Nat) : (m.startTimer t len).deadline t = some (m.now + len) := by
  simp [Mach.startTimer, Mach.deadline]

@[simp] theorem Mach.deadline_stopTimer (m : Mach) (t : Timer) : (m.stopTimer t).deadline t = none := by
  simp [Mach.stopTimer, Mach.stopTimers, Mach.deadline]

/-- A row that names a timer's end changes nothing where the timer does not run. -/
theorem Mach.onExpiry_none {m : Mach} {t : Timer} (h : m.deadline t = none) (f : Mach → Mach) : m.onExpiry t f = m := by
  simp [Mach.onExpiry, h]

/-- It brings the clock to the deadline, and the effect, where the timer runs. -/
theorem Mach.onExpiry_some {m : Mach} {t : Timer} {d : Nat} (h : m.deadline t = some d) (f : Mach → Mach) :
    m.onExpiry t f = f ((m.advanceTo d).stopTimer t) := by
  simp [Mach.onExpiry, h]

end Machine

end Sys2Proof
end

