-- ==== Sys2Proof/Laws/Steps.lean ====
section
/-! SUPPORT. How a meaning completes, how frames compose, and for each shared operation of Ops.lean the parts of the machine
it can change. -/

namespace Sys2Proof.Machine

open Sys2Proof

/-! ### Completion -/

/-- A meaning that is `State.run` completes with its change. -/
theorem yields_of_run {i : Instr} {s : State} {P : Mach → Prop} {f : Gen → Mach → Mach} (h : exec i s = s.run f) (hp : P (f s.gen s.m)) :
    Yields i s P :=
  ⟨_, h, rfl, rfl, hp⟩

/-- A meaning that names a part completes where the part is present. -/
theorem yields_of_runIf {i : Instr} {s : State} {P : Mach → Prop} {f : Gen → Mach → Mach} {b : Bool} (h : exec i s = s.runIf b f)
    (hb : b = true) (hp : P (f s.gen s.m)) : Yields i s P :=
  ⟨{ s with m := f s.gen s.m }, by rw [h, hb]; rfl, rfl, rfl, hp⟩

/-- An arriving packet's row completes where the NI is present and the CMD is the row's. -/
theorem yields_of_runPkt {i : Instr} {s : State} {P : Mach → Prop} {f : Gen → Mach → Mach} {b c : Bool} (h : exec i s = s.runPkt b c f)
    (hb : b = true) (hc : c = true) (hp : P (f s.gen s.m)) : Yields i s P :=
  ⟨{ s with m := f s.gen s.m }, by rw [h, hb, hc]; rfl, rfl, rfl, hp⟩

/-! ### Frames -/

theorem changesOnly.refl (ps : List Part) (a : Mach) : changesOnly ps a a := by
  intro p _
  cases p <;> rfl

theorem changesOnly.trans {ps : List Part} {a b c : Mach} (h1 : changesOnly ps a b) (h2 : changesOnly ps b c) : changesOnly ps a c := by
  intro p hp
  have e1 := h1 p hp
  have e2 := h2 p hp
  cases p <;> exact Eq.trans e2 e1

theorem changesOnly.mono {ps qs : List Part} {a b : Mach} (h1 : changesOnly ps a b) (h : ∀ p ∈ ps, p ∈ qs) : changesOnly qs a b :=
  fun p hp => h1 p fun hq => hp (h p hq)

theorem changesOnly.foldl {α : Type} {ps : List Part} {f : Mach → α → Mach} (h : ∀ m x, changesOnly ps m (f m x)) (l : List α) (m : Mach) :
    changesOnly ps m (l.foldl f m) := by
  induction l generalizing m with
  | nil => exact .refl _ _
  | cons x l ih => exact (h m x).trans (ih _)

theorem changesOnly.optional {ps : List Part} {m : Mach} {o : Option Mach} (h : ∀ x, o = some x → changesOnly ps m x) :
    changesOnly ps m (o.getD m) := by
  cases o with
  | none => exact .refl _ _
  | some x => exact h x rfl

theorem sameRegsBut.refl (ks : List Nat) (a : Mach) : sameRegsBut ks a a := fun _ _ => rfl

theorem sameRegsBut.trans {ks : List Nat} {a b c : Mach} (h1 : sameRegsBut ks a b) (h2 : sameRegsBut ks b c) : sameRegsBut ks a c :=
  fun k hk => (h2 k hk).trans (h1 k hk)

/-! ### Registers and counters -/

theorem setReg_changes (m : Mach) (k v : Nat) : changesOnly [.regs] m (m.setReg k v) := by
  intro p hp; cases p <;> first | rfl | simp at hp

theorem setReg_sameRegs (m : Mach) (k v : Nat) : sameRegsBut [k] m (m.setReg k v) :=
  fun j hj => Tab.get?_put_ne _ _ (by simpa using hj)

theorem reg_setReg (m : Mach) (g : Gen) (k v : Nat) : (m.setReg k v).reg g k = v := by simp [Mach.reg, Mach.setReg]

theorem addSat_changes (m : Mach) (g : Gen) (k n : Nat) : changesOnly [.regs] m (m.addSat g k n) := setReg_changes _ _ _
theorem addWrap_changes (m : Mach) (g : Gen) (k n : Nat) : changesOnly [.regs] m (m.addWrap g k n) := setReg_changes _ _ _
theorem noteHw_changes (m : Mach) (k mask v : Nat) : changesOnly [.hw] m (m.noteHw k mask v) := by
  intro p hp; cases p <;> first | rfl | simp at hp
theorem orReg_changes (m : Mach) (g : Gen) (k v : Nat) : changesOnly [.regs, .hw] m (m.orReg g k v) := by
  intro p hp; cases p <;> first | rfl | simp at hp
theorem hwReg_changes (m : Mach) (g : Gen) (k mask v : Nat) : changesOnly [.regs, .hw] m (m.hwReg g k mask v) := by
  intro p hp; cases p <;> first | rfl | simp at hp
theorem write_changes (m : Mach) (k v : Nat) : changesOnly [.regs] m (m.write k v) := setReg_changes _ _ _
theorem addSat_sameRegs (m : Mach) (g : Gen) (k n : Nat) : sameRegsBut [k] m (m.addSat g k n) := setReg_sameRegs _ _ _
theorem addWrap_sameRegs (m : Mach) (g : Gen) (k n : Nat) : sameRegsBut [k] m (m.addWrap g k n) := setReg_sameRegs _ _ _
theorem reg_addWrap (m : Mach) (g : Gen) (k n : Nat) : (m.addWrap g k n).reg g k = wrapped g m k n := reg_setReg _ _ _ _
theorem reg_addSat (m : Mach) (g : Gen) (k n : Nat) : (m.addSat g k n).reg g k = capped g m k n := reg_setReg _ _ _ _

theorem addEvent_changes (m : Mach) (g : Gen) (idx chain e n : Nat) : changesOnly [.regs] m (addEvent m g idx chain e n) := by
  unfold addEvent
  split
  · exact .refl _ _
  · dsimp only
    split
    · exact (setReg_changes _ _ _).trans (setReg_changes _ _ _)
    · exact setReg_changes _ _ _

theorem cntR_changes (m : Mach) (g : Gen) (r e n : Nat) : changesOnly [.regs] m (m.cntR g r e n) := addEvent_changes _ _ _ _ _ _

theorem cntN_changes (m : Mach) (g : Gen) (l e n : Nat) : changesOnly [.regs] m (m.cntN g l e n) := by
  unfold Mach.cntN
  split
  · exact .refl _ _
  · exact addEvent_changes _ _ _ _ _ _

/-! ### Time, units, boundary -/

theorem pass_changes (m : Mach) (n : Nat) : changesOnly [.time] m (m.pass n) := by
  intro p hp
  cases p <;> simp [Part.same] <;> exact absurd (List.mem_singleton_self _) hp
theorem advanceTo_changes (m : Mach) (t : Nat) : changesOnly [.time] m (m.advanceTo t) := pass_changes _ _
theorem advanceFt_changes (m : Mach) (t : Nat) : changesOnly [.time] m (m.advanceFt t) := by
  unfold Mach.advanceFt
  split
  · exact .refl _ _
  · exact pass_changes _ _

/-! ### Timers -/

theorem startTimer_changes (m : Mach) (t : Timer) (len : Nat) : changesOnly [.timers] m (m.startTimer t len) := by
  intro p hp; cases p <;> first | rfl | simp at hp
theorem stopTimers_changes (m : Mach) (q : Timer → Bool) : changesOnly [.timers] m (m.stopTimers q) := by
  intro p hp; cases p <;> first | rfl | simp at hp

/-- What the end of a timer changes: the clock, the timers, and what its effect changes. -/
theorem onExpiry_changes {ps : List Part} (m : Mach) (t : Timer) {f : Mach → Mach} (h : ∀ x, changesOnly ps x (f x)) :
    changesOnly (.time :: .timers :: ps) m (m.onExpiry t f) := by
  unfold Mach.onExpiry
  split
  · exact .refl _ _
  · exact ((((advanceTo_changes _ _).mono (by simp)).trans ((stopTimers_changes _ _).mono (by simp)))).trans
      ((h _).mono fun _ hp => List.mem_cons_of_mem _ (List.mem_cons_of_mem _ hp))

theorem updR_changes (m : Mach) (r : Nat) (f : Router → Router) : changesOnly [.routers] m (m.updR r f) := by
  intro p hp; cases p <;> first | rfl | simp at hp
theorem updN_changes (m : Mach) (l : Nat) (f : Ni → Ni) : changesOnly [.nis] m (m.updN l f) := by
  intro p hp; cases p <;> first | rfl | simp at hp
theorem updE_changes (m : Mach) (i : Nat) (f : Engine → Engine) : changesOnly [.engines] m (m.updE i f) := by
  intro p hp; cases p <;> first | rfl | simp at hp
theorem updP_changes (m : Mach) (p : Nat) (f : Port → Port) : changesOnly [.ports] m (m.updP p f) := by
  intro q hq; cases q <;> first | rfl | simp at hq
theorem updD_changes (m : Mach) (d : Nat) (f : Domain → Domain) : changesOnly [.domains] m (m.updD d f) := by
  intro p hp; cases p <;> first | rfl | simp at hp
theorem updSh_changes (m : Mach) (f : Shuttle → Shuttle) : changesOnly [.sh] m (m.updSh f) := by
  intro p hp; cases p <;> first | rfl | simp at hp
theorem updT_changes (m : Mach) (f : TimeSt → TimeSt) : changesOnly [.time] m (m.updT f) := by
  intro p hp; cases p <;> first | rfl | simp at hp
theorem emit_changes (m : Mach) (o : Out) : changesOnly [.out] m (m.emit o) := by
  intro p hp; cases p <;> first | rfl | simp at hp
theorem setWire_changes (m : Mach) (e : LinkEnd) (ws : List WireFlit) : changesOnly [.wires] m (m.setWire e ws) := by
  intro p hp; cases p <;> first | rfl | simp at hp
theorem apply_changes (m : Mach) (q : Nat → Bool) : changesOnly [.inForce] m (m.apply q) := by
  intro p hp; cases p <;> first | rfl | simp at hp
theorem sendInternal_changes (m : Mach) (l : Nat) (p : Pkt) : changesOnly [.nis] m (m.sendInternal l p) := updN_changes _ _ _

/-! ### The log -/

theorem setLogNow_changes (m : Mach) (idx : Nat) (c : LogCycle) : changesOnly [.logs] m (m.setLogNow idx c) := by
  intro p hp; cases p <;> first | rfl | simp at hp

theorem countEvents_changes (g : Gen) (m : Mach) (idx sev n : Nat) : changesOnly [.regs, .hw, .logs] m (countEvents g m idx sev n) := by
  unfold countEvents
  split
  · exact .refl _ _
  · dsimp only
    have h : changesOnly [.regs, .hw, .logs] m ((noteCount g m idx sev n).addSat g (key idx (3 + sev)) n) :=
      ((setLogNow_changes m idx _).mono (by decide)).trans ((addSat_changes _ g (key idx (3 + sev)) n).mono (by decide))
    refine (h.trans ?_).trans ((orReg_changes _ _ _ _).mono (by decide))
    split
    · exact (orReg_changes _ _ _ _).mono (by decide)
    · exact .refl _ _

theorem putRecords_changes (m : Mach) (idx : Nat) (c : LogCycle) : changesOnly [.regs, .logs] m (putRecords m idx c) :=
  (((setLogNow_changes _ _ _).mono (by decide)).trans ((setReg_changes _ _ _).mono (by decide))).trans ((setReg_changes _ _ _).mono (by decide))

theorem recordEvent_changes (g : Gen) (m : Mach) (idx r : Nat) : changesOnly [.regs, .logs] m (recordEvent g m idx r) := by
  unfold recordEvent
  split
  · exact .refl _ _
  · exact putRecords_changes _ _ _

/-- A packet of the Shuttle joins its NI's ingress, or nothing happens. -/
theorem shuttleSend_changes (m : Mach) (p : Pkt) (x : Mach) (h : shuttleSend m p = some x) : changesOnly [.nis] m x := by
  unfold shuttleSend at h
  split at h
  · injection h with h
    exact h ▸ updN_changes _ _ _
  · cases h

theorem notifyRise_changes (g : Gen) (m : Mach) (before : Nat) : changesOnly [.regs, .nis] m (notifyRise g m before) := by
  unfold notifyRise
  dsimp only
  split
  · exact .refl _ _
  · generalize hq : shuttleSend m _ = o
    cases o with
    | none => exact (addSat_changes _ _ _ _).mono (by decide)
    | some x => exact (shuttleSend_changes _ _ _ hq).mono (by decide)

theorem overrun_changes (g : Gen) (m : Mach) (d : Nat) : changesOnly [.regs, .hw] m (overrun g m d) := by
  unfold overrun
  split
  · exact .refl _ _
  · exact (orReg_changes _ _ _ _).trans ((addWrap_changes _ _ _ _).mono (by decide))

/-- A value that crosses a bridge draws a free value, and may set FALLBACK and count it (R408). -/
theorem crossValue_changes (g : Gen) (m : Mach) (d : Nat) : changesOnly [.regs, .hw, .fresh] m (crossValue g m d) := by
  have h : changesOnly [.regs, .hw, .fresh] m { m with fresh := m.fresh + 1 } := by
    intro p hp; cases p <;> first | rfl | simp at hp
  unfold crossValue
  split
  · exact .refl _ _
  · dsimp only
    split
    · exact (h.trans ((orReg_changes _ _ _ _).mono (by decide))).trans ((addWrap_changes _ _ _ _).mono (by decide))
    · exact h

/-- An event of a unit changes its log's crossing and registers; one of the instance log may also send a MSG_INTR. -/
theorem logEv_changes (g : Gen) (m : Mach) (idx cause port : Nat) (fid : BitVec 16) (aux : Nat) :
    changesOnly [.regs, .hw, .nis, .logs] m (logEv g m idx cause port fid aux) := by
  unfold logEv
  dsimp only
  split
  · exact .refl _ _
  · split
    · exact (((countEvents_changes _ _ _ _ _).trans ((recordEvent_changes _ _ _ _).mono (by decide))).mono (by decide)).trans
        ((notifyRise_changes _ _ _).mono (by decide))
    · refine changesOnly.trans (b := if _ then m else _) ?_ fun p hp => by
        revert hp; cases p <;> first | (intro; rfl) | simp
      split
      · exact .refl _ _
      · generalize logDomain g idx = o
        cases o with
        | none => exact .refl _ _
        | some d => exact (overrun_changes _ _ _).mono (by decide)

/-! ### Stores -/

/-- What a store to scratch leaves: the canonical form, and nothing but scratch and its poison changed. -/
theorem Engine.store_keeps (e : Engine) (a : Nat) (bs : List Byte) (poison : Bool) (h : Mem.wf e.scratch = true) :
    Mem.wf (e.store a bs poison).scratch = true ∧ (e.store a bs poison).imem = e.imem ∧ (e.store a bs poison).ctxs = e.ctxs :=
  ⟨Mem.wf_writeBytes _ _ _ h, rfl, rfl⟩

end Sys2Proof.Machine
end

