-- ==== Sys2Proof/WellFormed.lean ====
section
/-! DEFINITION. Which commands spell a command: the packet of an arriving-packet row carries that row's CMD (R51), and
the frame of a FRAME_RECEIVE has no more than its eight flit positions (R372). -/

namespace Sys2Proof

/-- The CMD range an arriving-packet row stands for (R51, R54, R465), with the packet. -/
def Instr.arrival? : Instr → Option (Nat × Nat × Pkt)
  | .mgRead _ p => some (0xA0, 0xA0, p)
  | .mgWrite _ p => some (0xA1, 0xA1, p)
  | .mgInfo _ p => some (0xA2, 0xA2, p)
  | .mgVpSquash _ p => some (0xA3, 0xA3, p)
  | .mgReservedCmd _ p => some (0xA4, 0xAF, p)
  | .hoopReceive _ p => some (0xF3, 0xF3, p)
  | .wake _ p => some (0xF2, 0xF2, p)
  | .rd _ p => some (0x00, 0x00, p)
  | .rdIo _ p => some (0x01, 0x01, p)
  | .rdCfg _ p => some (0x02, 0x02, p)
  | .rdScratch _ p => some (0x03, 0x03, p)
  | .wrNp _ p => some (0x20, 0x20, p)
  | .wrP _ p _ => some (0x21, 0x21, p)
  | .wrNpPart _ p => some (0x22, 0x22, p)
  | .wrPPart _ p => some (0x23, 0x23, p)
  | .wrInlineP _ p => some (0x24, 0x24, p)
  | .wrCfg _ p => some (0x25, 0x25, p)
  | .wrScratch _ p => some (0x26, 0x26, p)
  | .atAdd _ p => some (0x40, 0x40, p)
  | .atSwap _ p => some (0x41, 0x41, p)
  | .atCas _ p => some (0x42, 0x42, p)
  | .atSmin _ p => some (0x43, 0x43, p)
  | .atSmax _ p => some (0x44, 0x44, p)
  | .atUmin _ p => some (0x45, 0x45, p)
  | .atUmax _ p => some (0x46, 0x46, p)
  | .atAnd _ p => some (0x47, 0x47, p)
  | .atOr _ p => some (0x48, 0x48, p)
  | .atXor _ p => some (0x49, 0x49, p)
  | .atFadd _ p => some (0x4A, 0x4A, p)
  | .collContrib _ p => some (0x50, 0x50, p)
  | .collResult _ p => some (0x51, 0x51, p)
  | .engInvoke _ p => some (0x52, 0x52, p)
  | .engEvent _ p => some (0x53, 0x53, p)
  | .cohN _ p => some (0x60, 0x7F, p)
  | .msg _ p => some (0x80, 0x80, p)
  | .msgInline _ p => some (0x81, 0x81, p)
  | .msgIntr _ p => some (0x82, 0x82, p)
  | .rsp _ p => some (0x90, 0x90, p)
  | .rspData _ p => some (0x91, 0x91, p)
  | .rspDataInline _ p => some (0x92, 0x92, p)
  | .rspMgmt _ p => some (0x93, 0x93, p)
  | .postedAck _ p => some (0xF0, 0xF0, p)
  | .nackRetry _ p => some (0xF1, 0xF1, p)
  | .partialDelivery _ p => some (0xF4, 0xF4, p)
  | _ => none

/-- The frame of a FRAME_RECEIVE carries at most the frame's flits (R372). -/
def Instr.frame? : Instr → Option Frame
  | .frameReceive _ (.channel f) => some f
  | _ => none

/-- A command is well formed when its operands spell it. -/
def Instr.wf (i : Instr) : Bool :=
  (match i.arrival? with
   | some (lo, hi, p) => between lo hi p.hdr.c
   | none => true) &&
  (match i.frame? with
   | some f => f.flits.length ≤ 8
   | none => true)

end Sys2Proof
end

