-- ==== Sys2Proof/Tests/Slice0.lean ====
section
/-! SUPPORT. Witnesses: for each statement's hypotheses a concrete state and operands that meet them together; and a few
values the manual itself gives. -/

namespace Sys2Proof.Tests

set_option Elab.async false

open Sys2Proof Sys2Proof.Machine

/-! ### States the witnesses start from -/

/-- A die of 2 × 2 routers: initiator NI 0x05, target NI 0x21 with engine 0, combined NI 0x22 with engine 1, one
short-reach port. -/
def g0 : Gen :=
  { Config.refGen with
    dimX := 2, dimY := 2
    nis := [⟨0x00, 0, 0, 0, 4, 0, 2⟩, ⟨0x05, 1, 1, 0, 4, 0, 2⟩, ⟨0x21, 2, 0, 1, 4, 1, 2⟩, ⟨0x22, 3, 1, 1, 4, 1, 2⟩]
    ports := [⟨0, 0, [0, 1, 16, 17, 18, 19], 3⟩] }

/-- The same die with a long-reach port. -/
def gLr : Gen := { g0 with ports := [⟨0, 2, [0, 1, 16, 17, 18, 19], 3⟩] }

def liveEp : Ep :=
  { Ep.reset with st := .opened, rdy := true, inCr := (List.range 8).map fun c => (c, 16), egCr := (List.range 6).map fun c => (c, 32) }

/-- All functions RUNNING, every port OPEN, the link UP, start-up done. -/
def liveOf (g : Gen) : Mach :=
  let m := Mach.resetOf g
  { m with
    regs := [(key 0x1001 1, 1), (key 0x1001 2, 1), (key 0x1200 1, 10)]
    time := { TimeSt.reset with clk := 327680000, ft := 327680000, sc := 10000, st := .locked }
    sh := { Shuttle.reset with porN := true }
    routers := m.routers.map fun (r, x) => (r, { x with fs := .running, cyclic := false })
    nis := m.nis.map fun (l, n) => (l, { n with fs := .running, ep := liveEp })
    engines := m.engines.map fun (i, e) => (i, { e with fs := .running })
    ports := m.ports.map fun (p, x) => (p, { x with fs := .running, link := .up, trained := 63, found := 63 }) }

/-- The live machine with a change. -/
def live (f : Mach → Mach := id) (g : Gen := g0) : State := ⟨g, f (liveOf g), []⟩

/-- The machine right after reset with a change. -/
def cold (f : Mach → Mach := id) : State := ⟨g0, f (Mach.resetOf g0), []⟩

/-- A header from fabric ID (node 2, local 5) to NI l of node 1. -/
def hh (l : Nat) (vn cls cmd : Nat) : Hdr :=
  { Hdr.zero with dest := mkFid 1 l, src := mkFid 2 5, vn := BitVec.ofNat 3 vn, cls := BitVec.ofNat 2 cls, cmd := BitVec.ofNat 8 cmd }

/-- The sealed packet of a header and data. -/
def pk (h : Hdr) (data : List Payload := []) : Pkt := (⟨h, data, false, []⟩ : Pkt).seal

/-- A destination flow entry that expects e. -/
def dflow (k : FlowKey) (e : Nat := 0) : DstFlow := ⟨k, e, none, 0, 0, [], 0⟩

/-- Instruction words, field by field (R307). -/
def wI (op sd sa imm : Nat) : Nat := op * 2 ^ 26 + sd * 2 ^ 21 + sa * 2 ^ 16 + imm

/-- Scalar registers for a context: what `l` lists, the others 0. -/
def regsOf (l : Tab Nat) : List (BitVec 64) := (List.range 32).map fun n => BitVec.ofNat 64 (l.getD n 0)

/-- A READY context at PC 3. -/
def cx (l : Tab Nat := []) (f : Ctx → Ctx := id) : Ctx :=
  f { pc := 3, s := regsOf l, w := (List.range 4).map fun n => BitVec.ofNat 512 (n + 1), st := .ready, entry := 0, ownerSrc := 0x105,
      ownerVport := 0, inv := none, timer := none, flag := false, rq := [], sends := 0, ops := [], order := [], ans := [],
      memErr := none, issued := 0, wd := 1000000, copies := 0, roots := [], rdyAt := 0 }

/-- Engine 1, of the combined NI 0x22, whose context 2 is `x` and stands at the word w. -/
def eng (w : Nat) (x : Ctx) (f : Engine → Engine := id) (h : Mach → Mach := id) : State :=
  live fun m => h (m.updE 1 fun e => f { e with imem := Mem.write [] 12 4 w, ctxs := [(2, x)] })

/-- NI l expects SEQ e of the flow of header h; then more changes. -/
def flow (l : Nat) (h : Hdr) (e : Nat := 0) (f : Mach → Mach := id) : State :=
  live fun m => f (m.updTab l fun t => { t with dst := [dflow h.flow e] })

/-- The address of scratch byte a of engine 1 (R299). -/
def sAddr (a : Nat) : BitVec 56 := engAddr 0xA2 0 a

/-- A management request for an object, from local ID 0x05 of node 2 or, for `l = 0`, its Shuttle. -/
def mg (cmd k : Nat) (data : List Byte := []) : Pkt :=
  let h := { hh 0 5 1 cmd with addr := BitVec.ofNat 56 (0xFD * 2 ^ 48 + k / 256 * 2 ^ 16 + k % 256 * 2 ^ 8) }
  (mkPkt { h with len := BitVec.ofNat 9 data.length } data).seal

/-- NI 0x00 expects this request next. -/
def mgAt (p : Pkt) (f : Mach → Mach := id) : State := flow 0 p.hdr 0 f

/-- The object at a key of the small instance. -/
def ob (k : Nat) : Obj := (objOf g0 k).getD (.plain .u8 .ro 0)


/-- The timer `t` runs out at `d`. -/
def due (t : Timer) (d : Nat) (m : Mach) : Mach := { m with timers := (t, d) :: m.timers }

/-- A flit on the ingress bus with good parity (R238). -/
def busFlit (ch i : Nat) (d : Payload) : BusFlit :=
  let f : BusFlit := ⟨BitVec.ofNat 3 ch, BitVec.ofNat 3 i, d, parity8 d, false⟩
  { f with cpar := ctlParity f }

/-- A packet on the ingress bus: its data flits, then its header (R240). -/
def busOf (ch : Nat) (h : Hdr) (data : List Payload) : List BusFlit :=
  (data.zipIdx.map fun (d, i) => busFlit ch (i + 1) d) ++ [busFlit ch 0 h.bits]

/-- A MG_REQ as bytes (R472). -/
def mgReqMsg (q : MgReq) : List Byte :=
  vendorMsg q.iana.toNat 1 ([q.op, 0] ++ toBytes q.target.toNat 2 ++ toBytes q.index.toNat 2 ++ [q.sub, 0] ++ toBytes q.size 2 ++ q.data)

/-! ### A pricking bank that ARM accepts -/

/-- A reservation of one slot: its input, first slot and RSV_ID (R164). -/
def rsvOf (inp start id : Nat) : Nat := 2 ^ 31 + inp * 2 ^ 27 + 1 * 2 ^ 24 + start * 2 ^ 12 + id

/-- A descriptor of a posted flow with threads 7 and 8 (R170). -/
def flowDesc (peer : Nat) : Nat := 2 ^ 127 + 3 * 2 ^ 123 + 1 * 2 ^ 120 + peer * 2 ^ 104 + 7 * 2 ^ 92 + 8 * 2 ^ 80

/-- The shadow bank of one class-0 flow from NI 0x05 to NI 0x22: thread 7 over one Y link, thread 8 over the other. -/
def bank (m : Mach) : Mach :=
  [(key 0x3100 2, 64), (key 0x3405 3, flowDesc 0xA2), (key 0x3522 3, flowDesc 0x85),
   (key (0x3800 + 8 * 1 + 0) 0, rsvOf 4 18 7), (key (0x3800 + 8 * 17 + 4) 0, rsvOf 1 19 7),
   (key (0x3800 + 8 * 1 + 1) 0, rsvOf 4 20 8), (key (0x3800 + 8 * 17 + 4) 1, rsvOf 0 21 8)].foldl (fun m (k, w) => m.setReg k w) m

/-! ### Contexts of an engine that wait for nothing -/

/-- No context of the engine waits for an event, said over its table. -/
theorem noWaiter {s : State} {i : Nat}
    (h : ((s.m.eng i).ctxs.all fun x => match x.2.st with | .waitEvent _ _ => false | _ => true) = true) :
    ∀ k y, s.m.ctx? i k = some y → ∀ e n, y.st ≠ .waitEvent e n := by
  have hm : ∀ (t : Tab Ctx) (k : Nat) (y : Ctx), t.get? k = some y → (k, y) ∈ t := by
    intro t k y
    induction t with
    | nil => simp [Tab.get?]
    | cons x t ih =>
      obtain ⟨k', v⟩ := x
      simp only [Tab.get?]
      split
      · rintro h; simp_all
      · intro h; exact List.mem_cons_of_mem _ (ih h)
  intro k y hk e n hst
  have := List.all_eq_true.mp h _ (hm _ _ _ hk)
  simp [hst] at this

/-! ### An image of a virtual port and its CRC -/

/-- The body of an image of virtual port 3: WEIGHT 1, a tag budget, a shape, a deficit. -/
@[irreducible] def imgBody : Nat := 0x00030200 + 0x85 * 2 ^ 32 + 3 * 2 ^ 48 + 0x80100100 * 2 ^ 64 + 0x12345 * 2 ^ 96 + 9 * 2 ^ 192

/-- The image with its CRC. -/
@[irreducible] def img : Nat := imgBody + 4197021728 * 2 ^ 2016

theorem crc32Reg_append (c : Nat) (xs ys : List Byte) : crc32Reg c (xs ++ ys) = crc32Reg (crc32Reg c xs) ys := by
  induction xs generalizing c with
  | nil => rfl
  | cons x xs ih => exact ih _

theorem crc_imgBody : crc32c (toBytes imgBody 252) = 4197021728 := by
  have hz : toBytes imgBody 252 = toBytes imgBody 28 ++ (List.replicate 56 0 ++ (List.replicate 56 0 ++
      (List.replicate 56 0 ++ List.replicate 56 0))) := by decide +kernel
  have h0 : crc32Reg 0xFFFFFFFF (toBytes imgBody 28) = 6439781 := by decide +kernel
  have h1 : crc32Reg 6439781 (List.replicate 56 0) = 2543970220 := by decide +kernel
  have h2 : crc32Reg 2543970220 (List.replicate 56 0) = 831853484 := by decide +kernel
  have h3 : crc32Reg 831853484 (List.replicate 56 0) = 1154180228 := by decide +kernel
  have h4 : crc32Reg 1154180228 (List.replicate 56 0) = 97945567 := by decide +kernel
  rw [crc32c, hz, crc32Reg_append, h0, crc32Reg_append, h1, crc32Reg_append, h2, crc32Reg_append, h3, h4]
  decide

theorem crc_img : crc32c (toBytes img 252) = 4197021728 := by
  rw [show toBytes img 252 = toBytes imgBody 252 from by decide +kernel, crc_imgBody]

/-- The live machine whose VP_IMAGE of NI 0x05 reads v. -/
def imgState (v : Nat) : State := live fun m => m.setReg (vpImageKey 5) v

theorem reg_img : (imgState img).m.reg (imgState img).gen (vpImageKey 5) = img := by decide +kernel

theorem reg_bad : (imgState (img + 2 ^ 2016)).m.reg (imgState (img + 2 ^ 2016)).gen (vpImageKey 5) = img + 2 ^ 2016 := by
  decide +kernel

/-! ### Frames -/

/-- A frame of channel c with these flits alone and a good CRC16. -/
def frm (ws : List WireFlit) (c : Nat) : Frame :=
  let f : Frame :=
    { flits := ws, ackLseq := 0, ackValid := false, nak := false, tsMark := 0,
      chan := BitVec.ofNat 3 c, on := c, replay := false, frameSlot := 0, vcCredits := 0, poolCredits := 2, poolMap := 0, crc := 0,
      sfHdr := 0, rxErr := false }
  { f with crc := f.crc16 false }

theorem tab_all {α : Type} {P : α → Prop} {d : α} (hd : P d) (t : Tab α) (h : ∀ x ∈ t, P x.2) (k : Nat) : P (t.getD k d) := by
  unfold Tab.getD
  induction t with
  | nil => simpa [Tab.get?] using hd
  | cons x t ih =>
    obtain ⟨k', v⟩ := x
    simp only [Tab.get?]
    split
    · exact h (k', v) List.mem_cons_self
    · exact ih fun x hx => h x (List.mem_cons_of_mem _ hx)

theorem chanMark {s : State} {p : Nat} (h : ∀ x ∈ (s.m.port p).chans, x.2.tsMark % 4 ≠ 2) : ∀ c, (s.m.chan p c).tsMark % 4 ≠ 2 :=
  tab_all (P := fun x : Chan => x.tsMark % 4 ≠ 2) (by decide) _ h

theorem optAll {α : Type} {P : α → Prop} [DecidablePred P] {o : Option α} (h : (o.all fun x => decide (P x)) = true) :
    ∀ x, o = some x → P x := by
  rintro x rfl
  simpa using h

/-! ### An image for IMAGE_END -/

theorem crc32Reg_drop (l : List Byte) (a n b c c' : Nat) (hb : b = a + n) (h : crc32Reg c ((l.drop a).take n) = c') :
    crc32Reg c (l.drop a) = crc32Reg c' (l.drop b) := by
  rw [hb, ← h, ← crc32Reg_append, ← List.drop_drop, List.take_append_drop]

/-- The bytes the digest of the small instance is taken over. -/
def digBytes : List Byte :=
  toBytes g0.dimX 1 ++ toBytes g0.dimY 1 ++ toBytes g0.nis.length 1 ++ toBytes g0.engineCount 1 ++ toBytes g0.ports.length 1 ++
    toBytes g0.doms.length 1 ++ toBytes g0.wireDelay 2 ++ toBytes g0.wireEnergy 2 ++ toBytes g0.worstDelay 2 ++
    toBytes g0.worstEnergy 2 ++ (List.range 127).flatMap fun l => toBytes (g0.niMap l) 4

theorem crc_digBytes : crc32Reg 0xFFFFFFFF digBytes = 3828159779 :=
  (crc32Reg_drop digBytes 0 58 58 _ 1641933993 (by decide) (by decide +kernel)).trans
  ((crc32Reg_drop digBytes 58 58 116 _ 668168376 (by decide) (by decide +kernel)).trans
  ((crc32Reg_drop digBytes 116 58 174 _ 2582522449 (by decide) (by decide +kernel)).trans
  ((crc32Reg_drop digBytes 174 58 232 _ 1356648638 (by decide) (by decide +kernel)).trans
  ((crc32Reg_drop digBytes 232 58 290 _ 471224240 (by decide) (by decide +kernel)).trans
  ((crc32Reg_drop digBytes 290 58 348 _ 386125845 (by decide) (by decide +kernel)).trans
  ((crc32Reg_drop digBytes 348 58 406 _ 3303183690 (by decide) (by decide +kernel)).trans
  ((crc32Reg_drop digBytes 406 58 464 _ 231361794 (by decide) (by decide +kernel)).trans
  ((crc32Reg_drop digBytes 464 58 522 _ 3828159779 (by decide) (by decide +kernel)).trans
  ((by rw [List.drop_of_length_le (by decide +kernel)]; rfl))))))))))

theorem digest_g0 : genDigest g0 = 466807516 := by
  have h : genDigest g0 = crc32c digBytes := by unfold genDigest digBytes; rfl
  rw [h, crc32c, crc_digBytes]
  decide

/-- The least image: a header of no records and its CRC. -/
def image0 : List Byte := toBytes 0x30200 4 ++ toBytes 466807516 4 ++ toBytes 36 4 ++ List.replicate 20 0 ++ toBytes 1386525167 4

def imageState : State :=
  live fun m => (m.setReg (key 0x1200 1) 3).updSh fun x => { x with image := (List.range 36).map fun i => (i, image0.getD i 0) }

theorem imageOf_image0 : imageOf imageState 36 = image0 := by decide +kernel


/-! ### One witness per row -/

theorem test_wit_todLatch : ∃ (s : State),
    (isMaster s.gen s.m = true) :=
  ⟨live (·.setReg (key 0x3000 1) 1), by decide +kernel⟩

theorem test_wit_ppsLoss : ∃ (d : Nat) (s : State),
    (isMaster s.gen s.m = true) ∧ (s.m.deadline .pps = some d) :=
  ⟨327710000, live fun m => due .pps 327710000 ((m.setReg (key 0x3000 1) 1).updT fun t => { t with present := true }), by decide +kernel⟩

theorem test_wit_ppsEdge : ∃ (ns : Nat) (s : State),
    (isMaster s.gen s.m = true) ∧ (s.m.time.tod = some ns) ∧ (ppsUsable s.m.time (stamp125 s.m.ft) = true) :=
  ⟨5001, live fun m => (m.setReg (key 0x3000 1) 1).updT fun t => { t with tod := some 5001 }, by decide +kernel⟩

theorem test_wit_ppsEdgeStep : ∃ (ns : Nat) (s : State),
    (isMaster s.gen s.m = true) ∧ (s.m.time.tod = some ns) ∧ (ppsUsable s.m.time (stamp125 s.m.ft) = true) :=
  ⟨500000, live fun m => (m.setReg (key 0x3000 1) 1).updT fun t => { t with tod := some 500000, st := .free }, by decide +kernel⟩

theorem test_wit_ppsEdgeActive : ∃ (ns : Nat) (s : State),
    (isMaster s.gen s.m = true) ∧ (s.m.time.tod = some ns) ∧ (ppsUsable s.m.time (stamp125 s.m.ft) = true) :=
  ⟨500000, live fun m => ({ m.setReg (key 0x3000 1) 1 with prk := { m.prk with st := .active } }).updT fun t => { t with tod := some 500000, st := .free }, by decide +kernel⟩

theorem test_wit_ppsError : ∃ (s : State),
    (isMaster s.gen s.m = true) ∧ (ppsUsable s.m.time (stamp125 s.m.ft) = false) :=
  ⟨live (·.setReg (key 0x3000 1) 1), by decide +kernel⟩

theorem test_wit_timeAdv : ∃ (p : Nat) (s : State),
    (s.gen.hasPort p = true) ∧ (s.m.ports.has p = true) ∧ (portLive s.m p = true) :=
  ⟨0, live, by decide +kernel⟩

theorem test_wit_timeAdvConflict : ∃ (p : Nat) (s : State),
    (s.gen.hasPort p = true) ∧ (s.m.ports.has p = true) ∧ (portLive s.m p = true) :=
  ⟨0, live (·.setReg (key 0x3000 1) 1), by decide +kernel⟩

theorem test_wit_conflictClear : ∃ (d : Nat) (s : State),
    (s.m.time.conflict = true) ∧ (s.m.deadline .conflict = some d) ∧ ((∀ a ∈ liveAdvs s.gen s.m, a.2.conflict = false ∧ conflictWith s.gen s.m a.2 = none)) :=
  ⟨327710000, live fun m => due .conflict 327710000 (m.updT fun t => { t with conflict := true }), by decide +kernel⟩

theorem test_wit_timeExchangeStart : ∃ (u : Nat) (c : Nat) (s : State),
    (s.m.time.upstream = some u) ∧ (isMaster s.gen s.m = false) ∧ (portLive s.m u = true) ∧ (lowestChan s.m u = some c) ∧ (s.m.ports.has u = true) ∧ ((s.m.port u).chans.has c = true) :=
  ⟨0, 0, live (·.updT fun t => { t with upstream := some 0 }), by decide +kernel⟩

theorem test_wit_tsValues : ∃ (p : Nat) (t1 : Nat) (t2 : Nat) (t3 : Nat) (t4 : Nat) (s : State),
    (s.gen.hasPort p = true) ∧ (s.m.time.t1 = some t1) ∧ (s.m.time.t4 = some t4) ∧ (s.m.time.upstream = some p) ∧ (t2 < 2 ^ 80) ∧ (t3 < 2 ^ 80) :=
  ⟨0, 1000000, 1010000, 1020000, 1030000, live (·.updT fun t => { t with upstream := some 0, t1 := some 1000000, t4 := some 1030000, bad := 3 }), by decide +kernel⟩

theorem test_wit_tsValuesAcquire : ∃ (p : Nat) (t1 : Nat) (t2 : Nat) (t3 : Nat) (t4 : Nat) (s : State),
    (s.gen.hasPort p = true) ∧ (s.m.time.t1 = some t1) ∧ (s.m.time.t4 = some t4) ∧ (s.m.time.upstream = some p) ∧ (t2 < 2 ^ 80) ∧ (t3 < 2 ^ 80) :=
  ⟨0, 1000000, 1010000, 1020000, 1030000, live (·.updT fun t => { t with upstream := some 0, t1 := some 1000000, t4 := some 1030000, st := .acquiring, good := 7 }), by decide +kernel⟩

theorem test_wit_tsValuesFar : ∃ (p : Nat) (t1 : Nat) (t2 : Nat) (t3 : Nat) (t4 : Nat) (s : State),
    (s.gen.hasPort p = true) ∧ (s.m.time.t1 = some t1) ∧ (s.m.time.t4 = some t4) ∧ (s.m.time.upstream = some p) ∧ (t2 < 2 ^ 80) ∧ (t3 < 2 ^ 80) :=
  ⟨0, 1000000, 2010000, 2020000, 1030000, live (·.updT fun t => { t with upstream := some 0, t1 := some 1000000, t4 := some 1030000, bad := 3 }), by decide +kernel⟩

theorem test_wit_tsExchangeTimeout : ∃ (u : Nat) (t1 : Nat) (d : Nat) (s : State),
    (s.m.time.t1 = some t1) ∧ (s.m.time.upstream = some u) ∧ (s.m.deadline .tsAnswer = some d) :=
  ⟨0, 5, 327710000, live fun m => due .tsAnswer 327710000 (m.updT fun t => { t with upstream := some 0, t1 := some 5 }), by decide +kernel⟩

theorem test_wit_holdoverEntry : ∃ (u : Nat) (d : Nat) (s : State),
    (isMaster s.gen s.m = false) ∧ (s.m.time.st = .locked) ∧ (s.m.time.upstream = some u) ∧ (s.m.deadline .exchange = some d) :=
  ⟨0, 327710000, live fun m => due .exchange 327710000 (m.updT fun t => { t with upstream := some 0 }), by decide +kernel⟩

theorem test_wit_holdoverLimit : ∃ (d : Nat) (s : State),
    (s.m.time.st = .holdover) ∧ (s.m.deadline .holdover = some d) :=
  ⟨327710000, live fun m => due .holdover 327710000 (m.updT fun t => { t with st := .holdover }), by decide +kernel⟩

theorem test_wit_slotMisalign : ∃ (s : State),
    (prkRunning s.m = true) ∧ (2 < s.m.time.slotErr.natAbs) :=
  ⟨live fun m => { m.updT (fun t => { t with sc := 10003 }) with prk := { m.prk with st := .active } }, by decide +kernel⟩

theorem test_wit_slewRate : ∃ (m : Mach) (n : Nat),
    (0 < n) :=
  ⟨(liveOf g0).updT fun t => { t with slew := 70000, slewLen := 2000000, slewDone := 5 }, 3000000, by decide +kernel⟩

theorem test_wit_sidebandDrop : ∃ (p : Nat) (crc : BitVec 16) (s : State) (i : Instr) (t : Nat) (pl : List Byte),
    (s.gen.hasPort p = true) ∧ (crc ≠ sbCrc t pl) ∧ ((t = 0x07 ∧ (∃ x : TimeAdv, i = .timeAdv ⟨p, crc⟩ x ∧ pl = x.bytes) ∨ t = 0x01 ∧ (∃ x : ParamMsg, i = .param ⟨p, crc⟩ x ∧ pl = x.bytes) ∨ t = 0x02 ∧ (∃ n map, i = .train ⟨p, n, map, crc⟩ ∧ pl = trainBytes n map) ∨ t = 0x03 ∧ (∃ c, i = .retrainReq ⟨p, crc⟩ c ∧ pl = [BitVec.ofNat 8 c]) ∨ t = 0x04 ∧ (∃ a b, i = .tsValues ⟨p, crc⟩ a b ∧ pl = tsBytes a b) ∨ t = 0x05 ∧ (∃ d : BitVec 32, i = .prkDigest ⟨p, crc⟩ d ∧ pl = toBytes d.toNat 4) ∨ t = 0x06 ∧ (∃ c, i = .pwrReq ⟨p, crc⟩ c ∧ pl = [BitVec.ofNat 8 c]) ∨ t = 0x08 ∧ i = .linkDown ⟨p, crc⟩ ∧ pl = [])) :=
  ⟨0, 0, live, .pwrReq ⟨0, 0⟩ 1, 6, [1], by decide +kernel, by decide +kernel, Or.inr (Or.inr (Or.inr (Or.inr (Or.inr (Or.inr (Or.inl ⟨rfl, 1, rfl, rfl⟩))))))⟩

theorem test_wit_alu : ∃ (i : Nat) (c : Nat) (s : State) (x : Ctx) (w : Nat) (v : BitVec 64),
    (canIssue s i c 0x00 false x w) ∧ (fld w 10 6 = 0) ∧ (aluResult (fld w 5 0) (x.sreg (fSA w)) (x.sreg (fSB w)) = some v) :=
  ⟨1, 2, eng (wI 0 4 1 (2 * 2048 + 0)) (cx [(0, 7), (1, 0xFFFFFFFFFFFFFFF0), (2, 5), (3, 0x100)]), cx [(0, 7), (1, 0xFFFFFFFFFFFFFFF0), (2, 5), (3, 0x100)], wI 0 4 1 (2 * 2048 + 0), (aluResult 0 0xFFFFFFFFFFFFFFF0 5).getD 0, by decide +kernel⟩

theorem test_wit_aluF1 : ∃ (i : Nat) (c : Nat) (s : State) (x : Ctx) (w : Nat) (v : BitVec 64),
    (canIssue s i c 0x00 false x w) ∧ (fld w 10 6 = 0) ∧ (aluResult (fld w 5 0) (x.sreg (fSA w)) (x.sreg (fSB w)) = some v) :=
  ⟨1, 2, eng (wI 0 4 1 (2 * 2048 + 1)) (cx [(0, 7), (1, 0xFFFFFFFFFFFFFFF0), (2, 5), (3, 0x100)]), cx [(0, 7), (1, 0xFFFFFFFFFFFFFFF0), (2, 5), (3, 0x100)], wI 0 4 1 (2 * 2048 + 1), (aluResult 1 0xFFFFFFFFFFFFFFF0 5).getD 0, by decide +kernel⟩

theorem test_wit_aluF2 : ∃ (i : Nat) (c : Nat) (s : State) (x : Ctx) (w : Nat) (v : BitVec 64),
    (canIssue s i c 0x00 false x w) ∧ (fld w 10 6 = 0) ∧ (aluResult (fld w 5 0) (x.sreg (fSA w)) (x.sreg (fSB w)) = some v) :=
  ⟨1, 2, eng (wI 0 4 1 (2 * 2048 + 2)) (cx [(0, 7), (1, 0xFFFFFFFFFFFFFFF0), (2, 5), (3, 0x100)]), cx [(0, 7), (1, 0xFFFFFFFFFFFFFFF0), (2, 5), (3, 0x100)], wI 0 4 1 (2 * 2048 + 2), (aluResult 2 0xFFFFFFFFFFFFFFF0 5).getD 0, by decide +kernel⟩

theorem test_wit_aluF3 : ∃ (i : Nat) (c : Nat) (s : State) (x : Ctx) (w : Nat) (v : BitVec 64),
    (canIssue s i c 0x00 false x w) ∧ (fld w 10 6 = 0) ∧ (aluResult (fld w 5 0) (x.sreg (fSA w)) (x.sreg (fSB w)) = some v) :=
  ⟨1, 2, eng (wI 0 4 1 (2 * 2048 + 3)) (cx [(0, 7), (1, 0xFFFFFFFFFFFFFFF0), (2, 5), (3, 0x100)]), cx [(0, 7), (1, 0xFFFFFFFFFFFFFFF0), (2, 5), (3, 0x100)], wI 0 4 1 (2 * 2048 + 3), (aluResult 3 0xFFFFFFFFFFFFFFF0 5).getD 0, by decide +kernel⟩

theorem test_wit_aluF4 : ∃ (i : Nat) (c : Nat) (s : State) (x : Ctx) (w : Nat) (v : BitVec 64),
    (canIssue s i c 0x00 false x w) ∧ (fld w 10 6 = 0) ∧ (aluResult (fld w 5 0) (x.sreg (fSA w)) (x.sreg (fSB w)) = some v) :=
  ⟨1, 2, eng (wI 0 4 1 (2 * 2048 + 4)) (cx [(0, 7), (1, 0xFFFFFFFFFFFFFFF0), (2, 5), (3, 0x100)]), cx [(0, 7), (1, 0xFFFFFFFFFFFFFFF0), (2, 5), (3, 0x100)], wI 0 4 1 (2 * 2048 + 4), (aluResult 4 0xFFFFFFFFFFFFFFF0 5).getD 0, by decide +kernel⟩

theorem test_wit_aluF5 : ∃ (i : Nat) (c : Nat) (s : State) (x : Ctx) (w : Nat) (v : BitVec 64),
    (canIssue s i c 0x00 false x w) ∧ (fld w 10 6 = 0) ∧ (aluResult (fld w 5 0) (x.sreg (fSA w)) (x.sreg (fSB w)) = some v) :=
  ⟨1, 2, eng (wI 0 4 1 (2 * 2048 + 5)) (cx [(0, 7), (1, 0xFFFFFFFFFFFFFFF0), (2, 5), (3, 0x100)]), cx [(0, 7), (1, 0xFFFFFFFFFFFFFFF0), (2, 5), (3, 0x100)], wI 0 4 1 (2 * 2048 + 5), (aluResult 5 0xFFFFFFFFFFFFFFF0 5).getD 0, by decide +kernel⟩

theorem test_wit_aluF6 : ∃ (i : Nat) (c : Nat) (s : State) (x : Ctx) (w : Nat) (v : BitVec 64),
    (canIssue s i c 0x00 false x w) ∧ (fld w 10 6 = 0) ∧ (aluResult (fld w 5 0) (x.sreg (fSA w)) (x.sreg (fSB w)) = some v) :=
  ⟨1, 2, eng (wI 0 4 1 (2 * 2048 + 6)) (cx [(0, 7), (1, 0xFFFFFFFFFFFFFFF0), (2, 5), (3, 0x100)]), cx [(0, 7), (1, 0xFFFFFFFFFFFFFFF0), (2, 5), (3, 0x100)], wI 0 4 1 (2 * 2048 + 6), (aluResult 6 0xFFFFFFFFFFFFFFF0 5).getD 0, by decide +kernel⟩

theorem test_wit_aluF7 : ∃ (i : Nat) (c : Nat) (s : State) (x : Ctx) (w : Nat) (v : BitVec 64),
    (canIssue s i c 0x00 false x w) ∧ (fld w 10 6 = 0) ∧ (aluResult (fld w 5 0) (x.sreg (fSA w)) (x.sreg (fSB w)) = some v) :=
  ⟨1, 2, eng (wI 0 4 1 (2 * 2048 + 7)) (cx [(0, 7), (1, 0xFFFFFFFFFFFFFFF0), (2, 5), (3, 0x100)]), cx [(0, 7), (1, 0xFFFFFFFFFFFFFFF0), (2, 5), (3, 0x100)], wI 0 4 1 (2 * 2048 + 7), (aluResult 7 0xFFFFFFFFFFFFFFF0 5).getD 0, by decide +kernel⟩

theorem test_wit_aluF8 : ∃ (i : Nat) (c : Nat) (s : State) (x : Ctx) (w : Nat) (v : BitVec 64),
    (canIssue s i c 0x00 false x w) ∧ (fld w 10 6 = 0) ∧ (aluResult (fld w 5 0) (x.sreg (fSA w)) (x.sreg (fSB w)) = some v) :=
  ⟨1, 2, eng (wI 0 4 1 (2 * 2048 + 8)) (cx [(0, 7), (1, 0xFFFFFFFFFFFFFFF0), (2, 5), (3, 0x100)]), cx [(0, 7), (1, 0xFFFFFFFFFFFFFFF0), (2, 5), (3, 0x100)], wI 0 4 1 (2 * 2048 + 8), (aluResult 8 0xFFFFFFFFFFFFFFF0 5).getD 0, by decide +kernel⟩

theorem test_wit_aluF9 : ∃ (i : Nat) (c : Nat) (s : State) (x : Ctx) (w : Nat) (v : BitVec 64),
    (canIssue s i c 0x00 false x w) ∧ (fld w 10 6 = 0) ∧ (aluResult (fld w 5 0) (x.sreg (fSA w)) (x.sreg (fSB w)) = some v) :=
  ⟨1, 2, eng (wI 0 4 1 (2 * 2048 + 9)) (cx [(0, 7), (1, 0xFFFFFFFFFFFFFFF0), (2, 5), (3, 0x100)]), cx [(0, 7), (1, 0xFFFFFFFFFFFFFFF0), (2, 5), (3, 0x100)], wI 0 4 1 (2 * 2048 + 9), (aluResult 9 0xFFFFFFFFFFFFFFF0 5).getD 0, by decide +kernel⟩

theorem test_wit_aluF10 : ∃ (i : Nat) (c : Nat) (s : State) (x : Ctx) (w : Nat) (v : BitVec 64),
    (canIssue s i c 0x00 false x w) ∧ (fld w 10 6 = 0) ∧ (aluResult (fld w 5 0) (x.sreg (fSA w)) (x.sreg (fSB w)) = some v) :=
  ⟨1, 2, eng (wI 0 4 1 (2 * 2048 + 10)) (cx [(0, 7), (1, 0xFFFFFFFFFFFFFFF0), (2, 5), (3, 0x100)]), cx [(0, 7), (1, 0xFFFFFFFFFFFFFFF0), (2, 5), (3, 0x100)], wI 0 4 1 (2 * 2048 + 10), (aluResult 10 0xFFFFFFFFFFFFFFF0 5).getD 0, by decide +kernel⟩

theorem test_wit_aluF11 : ∃ (i : Nat) (c : Nat) (s : State) (x : Ctx) (w : Nat) (v : BitVec 64),
    (canIssue s i c 0x00 false x w) ∧ (fld w 10 6 = 0) ∧ (aluResult (fld w 5 0) (x.sreg (fSA w)) (x.sreg (fSB w)) = some v) :=
  ⟨1, 2, eng (wI 0 4 1 (2 * 2048 + 11)) (cx [(0, 7), (1, 0xFFFFFFFFFFFFFFF0), (2, 5), (3, 0x100)]), cx [(0, 7), (1, 0xFFFFFFFFFFFFFFF0), (2, 5), (3, 0x100)], wI 0 4 1 (2 * 2048 + 11), (aluResult 11 0xFFFFFFFFFFFFFFF0 5).getD 0, by decide +kernel⟩

theorem test_wit_aluF12 : ∃ (i : Nat) (c : Nat) (s : State) (x : Ctx) (w : Nat) (v : BitVec 64),
    (canIssue s i c 0x00 false x w) ∧ (fld w 10 6 = 0) ∧ (aluResult (fld w 5 0) (x.sreg (fSA w)) (x.sreg (fSB w)) = some v) :=
  ⟨1, 2, eng (wI 0 4 1 (2 * 2048 + 12)) (cx [(0, 7), (1, 0xFFFFFFFFFFFFFFF0), (2, 5), (3, 0x100)]), cx [(0, 7), (1, 0xFFFFFFFFFFFFFFF0), (2, 5), (3, 0x100)], wI 0 4 1 (2 * 2048 + 12), (aluResult 12 0xFFFFFFFFFFFFFFF0 5).getD 0, by decide +kernel⟩

theorem test_wit_aluF13 : ∃ (i : Nat) (c : Nat) (s : State) (x : Ctx) (w : Nat) (v : BitVec 64),
    (canIssue s i c 0x00 false x w) ∧ (fld w 10 6 = 0) ∧ (aluResult (fld w 5 0) (x.sreg (fSA w)) (x.sreg (fSB w)) = some v) :=
  ⟨1, 2, eng (wI 0 4 1 (2 * 2048 + 13)) (cx [(0, 7), (1, 0xFFFFFFFFFFFFFFF0), (2, 5), (3, 0x100)]), cx [(0, 7), (1, 0xFFFFFFFFFFFFFFF0), (2, 5), (3, 0x100)], wI 0 4 1 (2 * 2048 + 13), (aluResult 13 0xFFFFFFFFFFFFFFF0 5).getD 0, by decide +kernel⟩

theorem test_wit_aluF14 : ∃ (i : Nat) (c : Nat) (s : State) (x : Ctx) (w : Nat) (v : BitVec 64),
    (canIssue s i c 0x00 false x w) ∧ (fld w 10 6 = 0) ∧ (aluResult (fld w 5 0) (x.sreg (fSA w)) (x.sreg (fSB w)) = some v) :=
  ⟨1, 2, eng (wI 0 4 1 (2 * 2048 + 14)) (cx [(0, 7), (1, 0xFFFFFFFFFFFFFFF0), (2, 5), (3, 0x100)]), cx [(0, 7), (1, 0xFFFFFFFFFFFFFFF0), (2, 5), (3, 0x100)], wI 0 4 1 (2 * 2048 + 14), (aluResult 14 0xFFFFFFFFFFFFFFF0 5).getD 0, by decide +kernel⟩

theorem test_wit_aluF15 : ∃ (i : Nat) (c : Nat) (s : State) (x : Ctx) (w : Nat) (v : BitVec 64),
    (canIssue s i c 0x00 false x w) ∧ (fld w 10 6 = 0) ∧ (aluResult (fld w 5 0) (x.sreg (fSA w)) (x.sreg (fSB w)) = some v) :=
  ⟨1, 2, eng (wI 0 4 1 (2 * 2048 + 15)) (cx [(0, 7), (1, 0xFFFFFFFFFFFFFFF0), (2, 5), (3, 0x100)]), cx [(0, 7), (1, 0xFFFFFFFFFFFFFFF0), (2, 5), (3, 0x100)], wI 0 4 1 (2 * 2048 + 15), (aluResult 15 0xFFFFFFFFFFFFFFF0 5).getD 0, by decide +kernel⟩

theorem test_wit_aluF16 : ∃ (i : Nat) (c : Nat) (s : State) (x : Ctx) (w : Nat) (v : BitVec 64),
    (canIssue s i c 0x00 false x w) ∧ (fld w 10 6 = 0) ∧ (aluResult (fld w 5 0) (x.sreg (fSA w)) (x.sreg (fSB w)) = some v) :=
  ⟨1, 2, eng (wI 0 4 1 (2 * 2048 + 16)) (cx [(0, 7), (1, 0xFFFFFFFFFFFFFFF0), (2, 5), (3, 0x100)]), cx [(0, 7), (1, 0xFFFFFFFFFFFFFFF0), (2, 5), (3, 0x100)], wI 0 4 1 (2 * 2048 + 16), (aluResult 16 0xFFFFFFFFFFFFFFF0 5).getD 0, by decide +kernel⟩

theorem test_wit_aluF17 : ∃ (i : Nat) (c : Nat) (s : State) (x : Ctx) (w : Nat) (v : BitVec 64),
    (canIssue s i c 0x00 false x w) ∧ (fld w 10 6 = 0) ∧ (aluResult (fld w 5 0) (x.sreg (fSA w)) (x.sreg (fSB w)) = some v) :=
  ⟨1, 2, eng (wI 0 4 1 (2 * 2048 + 17)) (cx [(0, 7), (1, 0xFFFFFFFFFFFFFFF0), (2, 5), (3, 0x100)]), cx [(0, 7), (1, 0xFFFFFFFFFFFFFFF0), (2, 5), (3, 0x100)], wI 0 4 1 (2 * 2048 + 17), (aluResult 17 0xFFFFFFFFFFFFFFF0 5).getD 0, by decide +kernel⟩

theorem test_wit_aluF18 : ∃ (i : Nat) (c : Nat) (s : State) (x : Ctx) (w : Nat) (v : BitVec 64),
    (canIssue s i c 0x00 false x w) ∧ (fld w 10 6 = 0) ∧ (aluResult (fld w 5 0) (x.sreg (fSA w)) (x.sreg (fSB w)) = some v) :=
  ⟨1, 2, eng (wI 0 4 1 (2 * 2048 + 18)) (cx [(0, 7), (1, 0xFFFFFFFFFFFFFFF0), (2, 5), (3, 0x100)]), cx [(0, 7), (1, 0xFFFFFFFFFFFFFFF0), (2, 5), (3, 0x100)], wI 0 4 1 (2 * 2048 + 18), (aluResult 18 0xFFFFFFFFFFFFFFF0 5).getD 0, by decide +kernel⟩

theorem test_wit_aluZero : ∃ (i : Nat) (c : Nat) (s : State) (x : Ctx) (w : Nat) (v : BitVec 64),
    (canIssue s i c 0x00 false x w) ∧ (fld w 10 6 = 0) ∧ (aluResult (fld w 5 0) (x.sreg (fSA w)) (x.sreg (fSB w)) = some v) :=
  ⟨1, 2, eng (wI 0 0 0 (1 * 2048)) (cx [(0, 7), (1, 0xFFFFFFFFFFFFFFF0), (2, 5), (3, 0x100)]), cx [(0, 7), (1, 0xFFFFFFFFFFFFFFF0), (2, 5), (3, 0x100)], wI 0 0 0 (1 * 2048), 0xFFFFFFFFFFFFFFF0, by decide +kernel⟩

theorem test_wit_addi : ∃ (i : Nat) (c : Nat) (s : State) (x : Ctx) (w : Nat),
    (canIssue s i c (0x01) false x w) :=
  ⟨1, 2, eng (wI 1 4 1 0xFFF1) (cx [(0, 7), (1, 0xFFFFFFFFFFFFFFF0), (2, 5), (3, 0x100)]), cx [(0, 7), (1, 0xFFFFFFFFFFFFFFF0), (2, 5), (3, 0x100)], wI 1 4 1 0xFFF1, by decide +kernel⟩

theorem test_wit_andi : ∃ (i : Nat) (c : Nat) (s : State) (x : Ctx) (w : Nat),
    (canIssue s i c (0x02) false x w) :=
  ⟨1, 2, eng (wI 2 4 1 0xFFF1) (cx [(0, 7), (1, 0xFFFFFFFFFFFFFFF0), (2, 5), (3, 0x100)]), cx [(0, 7), (1, 0xFFFFFFFFFFFFFFF0), (2, 5), (3, 0x100)], wI 2 4 1 0xFFF1, by decide +kernel⟩

theorem test_wit_ori : ∃ (i : Nat) (c : Nat) (s : State) (x : Ctx) (w : Nat),
    (canIssue s i c (0x03) false x w) :=
  ⟨1, 2, eng (wI 3 4 1 0xFFF1) (cx [(0, 7), (1, 0xFFFFFFFFFFFFFFF0), (2, 5), (3, 0x100)]), cx [(0, 7), (1, 0xFFFFFFFFFFFFFFF0), (2, 5), (3, 0x100)], wI 3 4 1 0xFFF1, by decide +kernel⟩

theorem test_wit_xori : ∃ (i : Nat) (c : Nat) (s : State) (x : Ctx) (w : Nat),
    (canIssue s i c (0x04) false x w) :=
  ⟨1, 2, eng (wI 4 4 1 0xFFF1) (cx [(0, 7), (1, 0xFFFFFFFFFFFFFFF0), (2, 5), (3, 0x100)]), cx [(0, 7), (1, 0xFFFFFFFFFFFFFFF0), (2, 5), (3, 0x100)], wI 4 4 1 0xFFF1, by decide +kernel⟩

theorem test_wit_slti : ∃ (i : Nat) (c : Nat) (s : State) (x : Ctx) (w : Nat),
    (canIssue s i c (0x07) false x w) :=
  ⟨1, 2, eng (wI 7 4 1 0xFFF1) (cx [(0, 7), (1, 0xFFFFFFFFFFFFFFF0), (2, 5), (3, 0x100)]), cx [(0, 7), (1, 0xFFFFFFFFFFFFFFF0), (2, 5), (3, 0x100)], wI 7 4 1 0xFFF1, by decide +kernel⟩

theorem test_wit_shi : ∃ (i : Nat) (c : Nat) (s : State) (x : Ctx) (w : Nat),
    (canIssue s i c 0x05 false x w) ∧ (fld w 15 8 = 0) ∧ (fld w 7 6 ≤ 2) :=
  ⟨1, 2, eng (wI 5 4 1 (0 * 64 + 3)) (cx [(0, 7), (1, 0xFFFFFFFFFFFFFFF0), (2, 5), (3, 0x100)]), cx [(0, 7), (1, 0xFFFFFFFFFFFFFFF0), (2, 5), (3, 0x100)], wI 5 4 1 (0 * 64 + 3), by decide +kernel⟩

theorem test_wit_shiK1 : ∃ (i : Nat) (c : Nat) (s : State) (x : Ctx) (w : Nat),
    (canIssue s i c 0x05 false x w) ∧ (fld w 15 8 = 0) ∧ (fld w 7 6 ≤ 2) :=
  ⟨1, 2, eng (wI 5 4 1 (1 * 64 + 3)) (cx [(0, 7), (1, 0xFFFFFFFFFFFFFFF0), (2, 5), (3, 0x100)]), cx [(0, 7), (1, 0xFFFFFFFFFFFFFFF0), (2, 5), (3, 0x100)], wI 5 4 1 (1 * 64 + 3), by decide +kernel⟩

theorem test_wit_shiK2 : ∃ (i : Nat) (c : Nat) (s : State) (x : Ctx) (w : Nat),
    (canIssue s i c 0x05 false x w) ∧ (fld w 15 8 = 0) ∧ (fld w 7 6 ≤ 2) :=
  ⟨1, 2, eng (wI 5 4 1 (2 * 64 + 3)) (cx [(0, 7), (1, 0xFFFFFFFFFFFFFFF0), (2, 5), (3, 0x100)]), cx [(0, 7), (1, 0xFFFFFFFFFFFFFFF0), (2, 5), (3, 0x100)], wI 5 4 1 (2 * 64 + 3), by decide +kernel⟩

theorem test_wit_lui : ∃ (i : Nat) (c : Nat) (s : State) (x : Ctx) (w : Nat),
    (canIssue s i c 0x06 false x w) ∧ (fld w 20 16 = 0) :=
  ⟨1, 2, eng (wI 6 4 0 0x8001) (cx [(0, 7), (1, 0xFFFFFFFFFFFFFFF0), (2, 5), (3, 0x100)]), cx [(0, 7), (1, 0xFFFFFFFFFFFFFFF0), (2, 5), (3, 0x100)], wI 6 4 0 0x8001, by decide +kernel⟩

theorem test_wit_beq : ∃ (i : Nat) (c : Nat) (s : State) (x : Ctx) (w : Nat),
    (canIssue s i c (0x08) false x w) ∧ (fld w 15 13 = 0) ∧ (((fun a b => a == b) (x.sreg (fSD w)) (x.sreg (fSA w)) = true → 0 ≤ branchTarget x w ∧ branchTarget x w ≤ 4095)) :=
  ⟨1, 2, eng (wI 8 1 2 5) (cx [(0, 7), (1, 0xFFFFFFFFFFFFFFF0), (2, 5), (3, 0x100)]), cx [(0, 7), (1, 0xFFFFFFFFFFFFFFF0), (2, 5), (3, 0x100)], wI 8 1 2 5, by decide +kernel⟩

theorem test_wit_beqBack : ∃ (i : Nat) (c : Nat) (s : State) (x : Ctx) (w : Nat),
    (canIssue s i c (0x08) false x w) ∧ (fld w 15 13 = 0) ∧ (((fun a b => a == b) (x.sreg (fSD w)) (x.sreg (fSA w)) = true → 0 ≤ branchTarget x w ∧ branchTarget x w ≤ 4095)) :=
  ⟨1, 2, eng (wI 8 2 1 0x1FFD) (cx [(0, 7), (1, 0xFFFFFFFFFFFFFFF0), (2, 5), (3, 0x100)]), cx [(0, 7), (1, 0xFFFFFFFFFFFFFFF0), (2, 5), (3, 0x100)], wI 8 2 1 0x1FFD, by decide +kernel⟩

theorem test_wit_beqSame : ∃ (i : Nat) (c : Nat) (s : State) (x : Ctx) (w : Nat),
    (canIssue s i c (0x08) false x w) ∧ (fld w 15 13 = 0) ∧ (((fun a b => a == b) (x.sreg (fSD w)) (x.sreg (fSA w)) = true → 0 ≤ branchTarget x w ∧ branchTarget x w ≤ 4095)) :=
  ⟨1, 2, eng (wI 8 2 2 0x1FFE) (cx [(0, 7), (1, 0xFFFFFFFFFFFFFFF0), (2, 5), (3, 0x100)]), cx [(0, 7), (1, 0xFFFFFFFFFFFFFFF0), (2, 5), (3, 0x100)], wI 8 2 2 0x1FFE, by decide +kernel⟩

theorem test_wit_bne : ∃ (i : Nat) (c : Nat) (s : State) (x : Ctx) (w : Nat),
    (canIssue s i c (0x09) false x w) ∧ (fld w 15 13 = 0) ∧ (((fun a b => a != b) (x.sreg (fSD w)) (x.sreg (fSA w)) = true → 0 ≤ branchTarget x w ∧ branchTarget x w ≤ 4095)) :=
  ⟨1, 2, eng (wI 9 1 2 5) (cx [(0, 7), (1, 0xFFFFFFFFFFFFFFF0), (2, 5), (3, 0x100)]), cx [(0, 7), (1, 0xFFFFFFFFFFFFFFF0), (2, 5), (3, 0x100)], wI 9 1 2 5, by decide +kernel⟩

theorem test_wit_bneBack : ∃ (i : Nat) (c : Nat) (s : State) (x : Ctx) (w : Nat),
    (canIssue s i c (0x09) false x w) ∧ (fld w 15 13 = 0) ∧ (((fun a b => a != b) (x.sreg (fSD w)) (x.sreg (fSA w)) = true → 0 ≤ branchTarget x w ∧ branchTarget x w ≤ 4095)) :=
  ⟨1, 2, eng (wI 9 2 1 0x1FFD) (cx [(0, 7), (1, 0xFFFFFFFFFFFFFFF0), (2, 5), (3, 0x100)]), cx [(0, 7), (1, 0xFFFFFFFFFFFFFFF0), (2, 5), (3, 0x100)], wI 9 2 1 0x1FFD, by decide +kernel⟩

theorem test_wit_bneSame : ∃ (i : Nat) (c : Nat) (s : State) (x : Ctx) (w : Nat),
    (canIssue s i c (0x09) false x w) ∧ (fld w 15 13 = 0) ∧ (((fun a b => a != b) (x.sreg (fSD w)) (x.sreg (fSA w)) = true → 0 ≤ branchTarget x w ∧ branchTarget x w ≤ 4095)) :=
  ⟨1, 2, eng (wI 9 2 2 0x1FFE) (cx [(0, 7), (1, 0xFFFFFFFFFFFFFFF0), (2, 5), (3, 0x100)]), cx [(0, 7), (1, 0xFFFFFFFFFFFFFFF0), (2, 5), (3, 0x100)], wI 9 2 2 0x1FFE, by decide +kernel⟩

theorem test_wit_blt : ∃ (i : Nat) (c : Nat) (s : State) (x : Ctx) (w : Nat),
    (canIssue s i c (0x0A) false x w) ∧ (fld w 15 13 = 0) ∧ (((BitVec.slt) (x.sreg (fSD w)) (x.sreg (fSA w)) = true → 0 ≤ branchTarget x w ∧ branchTarget x w ≤ 4095)) :=
  ⟨1, 2, eng (wI 10 1 2 5) (cx [(0, 7), (1, 0xFFFFFFFFFFFFFFF0), (2, 5), (3, 0x100)]), cx [(0, 7), (1, 0xFFFFFFFFFFFFFFF0), (2, 5), (3, 0x100)], wI 10 1 2 5, by decide +kernel⟩

theorem test_wit_bltBack : ∃ (i : Nat) (c : Nat) (s : State) (x : Ctx) (w : Nat),
    (canIssue s i c (0x0A) false x w) ∧ (fld w 15 13 = 0) ∧ (((BitVec.slt) (x.sreg (fSD w)) (x.sreg (fSA w)) = true → 0 ≤ branchTarget x w ∧ branchTarget x w ≤ 4095)) :=
  ⟨1, 2, eng (wI 10 2 1 0x1FFD) (cx [(0, 7), (1, 0xFFFFFFFFFFFFFFF0), (2, 5), (3, 0x100)]), cx [(0, 7), (1, 0xFFFFFFFFFFFFFFF0), (2, 5), (3, 0x100)], wI 10 2 1 0x1FFD, by decide +kernel⟩

theorem test_wit_bltSame : ∃ (i : Nat) (c : Nat) (s : State) (x : Ctx) (w : Nat),
    (canIssue s i c (0x0A) false x w) ∧ (fld w 15 13 = 0) ∧ (((BitVec.slt) (x.sreg (fSD w)) (x.sreg (fSA w)) = true → 0 ≤ branchTarget x w ∧ branchTarget x w ≤ 4095)) :=
  ⟨1, 2, eng (wI 10 2 2 0x1FFE) (cx [(0, 7), (1, 0xFFFFFFFFFFFFFFF0), (2, 5), (3, 0x100)]), cx [(0, 7), (1, 0xFFFFFFFFFFFFFFF0), (2, 5), (3, 0x100)], wI 10 2 2 0x1FFE, by decide +kernel⟩

theorem test_wit_bge : ∃ (i : Nat) (c : Nat) (s : State) (x : Ctx) (w : Nat),
    (canIssue s i c (0x0B) false x w) ∧ (fld w 15 13 = 0) ∧ (((fun a b => !a.slt b) (x.sreg (fSD w)) (x.sreg (fSA w)) = true → 0 ≤ branchTarget x w ∧ branchTarget x w ≤ 4095)) :=
  ⟨1, 2, eng (wI 11 1 2 5) (cx [(0, 7), (1, 0xFFFFFFFFFFFFFFF0), (2, 5), (3, 0x100)]), cx [(0, 7), (1, 0xFFFFFFFFFFFFFFF0), (2, 5), (3, 0x100)], wI 11 1 2 5, by decide +kernel⟩

theorem test_wit_bgeBack : ∃ (i : Nat) (c : Nat) (s : State) (x : Ctx) (w : Nat),
    (canIssue s i c (0x0B) false x w) ∧ (fld w 15 13 = 0) ∧ (((fun a b => !a.slt b) (x.sreg (fSD w)) (x.sreg (fSA w)) = true → 0 ≤ branchTarget x w ∧ branchTarget x w ≤ 4095)) :=
  ⟨1, 2, eng (wI 11 2 1 0x1FFD) (cx [(0, 7), (1, 0xFFFFFFFFFFFFFFF0), (2, 5), (3, 0x100)]), cx [(0, 7), (1, 0xFFFFFFFFFFFFFFF0), (2, 5), (3, 0x100)], wI 11 2 1 0x1FFD, by decide +kernel⟩

theorem test_wit_bgeSame : ∃ (i : Nat) (c : Nat) (s : State) (x : Ctx) (w : Nat),
    (canIssue s i c (0x0B) false x w) ∧ (fld w 15 13 = 0) ∧ (((fun a b => !a.slt b) (x.sreg (fSD w)) (x.sreg (fSA w)) = true → 0 ≤ branchTarget x w ∧ branchTarget x w ≤ 4095)) :=
  ⟨1, 2, eng (wI 11 2 2 0x1FFE) (cx [(0, 7), (1, 0xFFFFFFFFFFFFFFF0), (2, 5), (3, 0x100)]), cx [(0, 7), (1, 0xFFFFFFFFFFFFFFF0), (2, 5), (3, 0x100)], wI 11 2 2 0x1FFE, by decide +kernel⟩

theorem test_wit_bltu : ∃ (i : Nat) (c : Nat) (s : State) (x : Ctx) (w : Nat),
    (canIssue s i c (0x0C) false x w) ∧ (fld w 15 13 = 0) ∧ (((BitVec.ult) (x.sreg (fSD w)) (x.sreg (fSA w)) = true → 0 ≤ branchTarget x w ∧ branchTarget x w ≤ 4095)) :=
  ⟨1, 2, eng (wI 12 1 2 5) (cx [(0, 7), (1, 0xFFFFFFFFFFFFFFF0), (2, 5), (3, 0x100)]), cx [(0, 7), (1, 0xFFFFFFFFFFFFFFF0), (2, 5), (3, 0x100)], wI 12 1 2 5, by decide +kernel⟩

theorem test_wit_bltuBack : ∃ (i : Nat) (c : Nat) (s : State) (x : Ctx) (w : Nat),
    (canIssue s i c (0x0C) false x w) ∧ (fld w 15 13 = 0) ∧ (((BitVec.ult) (x.sreg (fSD w)) (x.sreg (fSA w)) = true → 0 ≤ branchTarget x w ∧ branchTarget x w ≤ 4095)) :=
  ⟨1, 2, eng (wI 12 2 1 0x1FFD) (cx [(0, 7), (1, 0xFFFFFFFFFFFFFFF0), (2, 5), (3, 0x100)]), cx [(0, 7), (1, 0xFFFFFFFFFFFFFFF0), (2, 5), (3, 0x100)], wI 12 2 1 0x1FFD, by decide +kernel⟩

theorem test_wit_bltuSame : ∃ (i : Nat) (c : Nat) (s : State) (x : Ctx) (w : Nat),
    (canIssue s i c (0x0C) false x w) ∧ (fld w 15 13 = 0) ∧ (((BitVec.ult) (x.sreg (fSD w)) (x.sreg (fSA w)) = true → 0 ≤ branchTarget x w ∧ branchTarget x w ≤ 4095)) :=
  ⟨1, 2, eng (wI 12 2 2 0x1FFE) (cx [(0, 7), (1, 0xFFFFFFFFFFFFFFF0), (2, 5), (3, 0x100)]), cx [(0, 7), (1, 0xFFFFFFFFFFFFFFF0), (2, 5), (3, 0x100)], wI 12 2 2 0x1FFE, by decide +kernel⟩

theorem test_wit_bgeu : ∃ (i : Nat) (c : Nat) (s : State) (x : Ctx) (w : Nat),
    (canIssue s i c (0x0D) false x w) ∧ (fld w 15 13 = 0) ∧ (((fun a b => !a.ult b) (x.sreg (fSD w)) (x.sreg (fSA w)) = true → 0 ≤ branchTarget x w ∧ branchTarget x w ≤ 4095)) :=
  ⟨1, 2, eng (wI 13 1 2 5) (cx [(0, 7), (1, 0xFFFFFFFFFFFFFFF0), (2, 5), (3, 0x100)]), cx [(0, 7), (1, 0xFFFFFFFFFFFFFFF0), (2, 5), (3, 0x100)], wI 13 1 2 5, by decide +kernel⟩

theorem test_wit_bgeuBack : ∃ (i : Nat) (c : Nat) (s : State) (x : Ctx) (w : Nat),
    (canIssue s i c (0x0D) false x w) ∧ (fld w 15 13 = 0) ∧ (((fun a b => !a.ult b) (x.sreg (fSD w)) (x.sreg (fSA w)) = true → 0 ≤ branchTarget x w ∧ branchTarget x w ≤ 4095)) :=
  ⟨1, 2, eng (wI 13 2 1 0x1FFD) (cx [(0, 7), (1, 0xFFFFFFFFFFFFFFF0), (2, 5), (3, 0x100)]), cx [(0, 7), (1, 0xFFFFFFFFFFFFFFF0), (2, 5), (3, 0x100)], wI 13 2 1 0x1FFD, by decide +kernel⟩

theorem test_wit_bgeuSame : ∃ (i : Nat) (c : Nat) (s : State) (x : Ctx) (w : Nat),
    (canIssue s i c (0x0D) false x w) ∧ (fld w 15 13 = 0) ∧ (((fun a b => !a.ult b) (x.sreg (fSD w)) (x.sreg (fSA w)) = true → 0 ≤ branchTarget x w ∧ branchTarget x w ≤ 4095)) :=
  ⟨1, 2, eng (wI 13 2 2 0x1FFE) (cx [(0, 7), (1, 0xFFFFFFFFFFFFFFF0), (2, 5), (3, 0x100)]), cx [(0, 7), (1, 0xFFFFFFFFFFFFFFF0), (2, 5), (3, 0x100)], wI 13 2 2 0x1FFE, by decide +kernel⟩

theorem test_wit_jal : ∃ (i : Nat) (c : Nat) (s : State) (x : Ctx) (w : Nat),
    (canIssue s i c 0x0E false x w) ∧ (fld w 20 16 = 0) ∧ (fld w 15 12 = 0) :=
  ⟨1, 2, eng (wI 14 4 0 0xFFF) (cx [(0, 7), (1, 0xFFFFFFFFFFFFFFF0), (2, 5), (3, 0x100)]), cx [(0, 7), (1, 0xFFFFFFFFFFFFFFF0), (2, 5), (3, 0x100)], wI 14 4 0 0xFFF, by decide +kernel⟩

theorem test_wit_jalr : ∃ (i : Nat) (c : Nat) (s : State) (x : Ctx) (w : Nat),
    (canIssue s i c 0x0F false x w) ∧ (fld w 10 0 = 0) :=
  ⟨1, 2, eng (wI 15 3 3 0) (cx [(0, 7), (1, 0xFFFFFFFFFFFFFFF0), (2, 5), (3, 0x100)]), cx [(0, 7), (1, 0xFFFFFFFFFFFFFFF0), (2, 5), (3, 0x100)], wI 15 3 3 0, by decide +kernel⟩

theorem test_wit_ld : ∃ (i : Nat) (c : Nat) (s : State) (x : Ctx) (w : Nat),
    (canIssue s i c 0x10 false x w) ∧ (inScratch (memAddr x w) (memSize w) (memSize w)) ∧ (clean (s.m.eng i) (memAddr x w) (memSize w)) :=
  ⟨1, 2, eng (wI 16 4 3 (0 * 16384 + 8)) (cx [(0, 7), (1, 0xFFFFFFFFFFFFFFF0), (2, 5), (3, 0x100)]) (fun e => { e with scratch := Mem.write [] 0x108 8 0xF1F2F3F4F5F6F7F8, poisoned := [] }), cx [(0, 7), (1, 0xFFFFFFFFFFFFFFF0), (2, 5), (3, 0x100)], wI 16 4 3 (0 * 16384 + 8), by decide +kernel⟩

theorem test_wit_lds : ∃ (i : Nat) (c : Nat) (s : State) (x : Ctx) (w : Nat),
    (canIssue s i c 0x11 false x w) ∧ (inScratch (memAddr x w) (memSize w) (memSize w)) ∧ (clean (s.m.eng i) (memAddr x w) (memSize w)) :=
  ⟨1, 2, eng (wI 17 4 3 (0 * 16384 + 8)) (cx [(0, 7), (1, 0xFFFFFFFFFFFFFFF0), (2, 5), (3, 0x100)]) (fun e => { e with scratch := Mem.write [] 0x108 8 0xF1F2F3F4F5F6F7F8, poisoned := [] }), cx [(0, 7), (1, 0xFFFFFFFFFFFFFFF0), (2, 5), (3, 0x100)], wI 17 4 3 (0 * 16384 + 8), by decide +kernel⟩

theorem test_wit_st : ∃ (i : Nat) (c : Nat) (s : State) (x : Ctx) (w : Nat),
    (canIssue s i c (0x12) false x w) ∧ ((fun _ => True) w) ∧ (inScratch (memAddr x w) ((memSize) w) ((memSize) w)) ∧ (Mem.wf (s.m.eng i).scratch = true) :=
  ⟨1, 2, eng (wI 18 1 3 (0 * 16384 + 8)) (cx [(0, 7), (1, 0xFFFFFFFFFFFFFFF0), (2, 5), (3, 0x100)]) (fun e => { e with scratch := Mem.write [] 0x108 8 0xF1F2F3F4F5F6F7F8, poisoned := [33, 40] }), cx [(0, 7), (1, 0xFFFFFFFFFFFFFFF0), (2, 5), (3, 0x100)], wI 18 1 3 (0 * 16384 + 8), by decide +kernel⟩

theorem test_wit_ld1 : ∃ (i : Nat) (c : Nat) (s : State) (x : Ctx) (w : Nat),
    (canIssue s i c 0x10 false x w) ∧ (inScratch (memAddr x w) (memSize w) (memSize w)) ∧ (clean (s.m.eng i) (memAddr x w) (memSize w)) :=
  ⟨1, 2, eng (wI 16 4 3 (1 * 16384 + 8)) (cx [(0, 7), (1, 0xFFFFFFFFFFFFFFF0), (2, 5), (3, 0x100)]) (fun e => { e with scratch := Mem.write [] 0x108 8 0xF1F2F3F4F5F6F7F8, poisoned := [] }), cx [(0, 7), (1, 0xFFFFFFFFFFFFFFF0), (2, 5), (3, 0x100)], wI 16 4 3 (1 * 16384 + 8), by decide +kernel⟩

theorem test_wit_lds1 : ∃ (i : Nat) (c : Nat) (s : State) (x : Ctx) (w : Nat),
    (canIssue s i c 0x11 false x w) ∧ (inScratch (memAddr x w) (memSize w) (memSize w)) ∧ (clean (s.m.eng i) (memAddr x w) (memSize w)) :=
  ⟨1, 2, eng (wI 17 4 3 (1 * 16384 + 8)) (cx [(0, 7), (1, 0xFFFFFFFFFFFFFFF0), (2, 5), (3, 0x100)]) (fun e => { e with scratch := Mem.write [] 0x108 8 0xF1F2F3F4F5F6F7F8, poisoned := [] }), cx [(0, 7), (1, 0xFFFFFFFFFFFFFFF0), (2, 5), (3, 0x100)], wI 17 4 3 (1 * 16384 + 8), by decide +kernel⟩

theorem test_wit_st1 : ∃ (i : Nat) (c : Nat) (s : State) (x : Ctx) (w : Nat),
    (canIssue s i c (0x12) false x w) ∧ ((fun _ => True) w) ∧ (inScratch (memAddr x w) ((memSize) w) ((memSize) w)) ∧ (Mem.wf (s.m.eng i).scratch = true) :=
  ⟨1, 2, eng (wI 18 1 3 (1 * 16384 + 8)) (cx [(0, 7), (1, 0xFFFFFFFFFFFFFFF0), (2, 5), (3, 0x100)]) (fun e => { e with scratch := Mem.write [] 0x108 8 0xF1F2F3F4F5F6F7F8, poisoned := [33, 40] }), cx [(0, 7), (1, 0xFFFFFFFFFFFFFFF0), (2, 5), (3, 0x100)], wI 18 1 3 (1 * 16384 + 8), by decide +kernel⟩

theorem test_wit_ld2 : ∃ (i : Nat) (c : Nat) (s : State) (x : Ctx) (w : Nat),
    (canIssue s i c 0x10 false x w) ∧ (inScratch (memAddr x w) (memSize w) (memSize w)) ∧ (clean (s.m.eng i) (memAddr x w) (memSize w)) :=
  ⟨1, 2, eng (wI 16 4 3 (2 * 16384 + 8)) (cx [(0, 7), (1, 0xFFFFFFFFFFFFFFF0), (2, 5), (3, 0x100)]) (fun e => { e with scratch := Mem.write [] 0x108 8 0xF1F2F3F4F5F6F7F8, poisoned := [] }), cx [(0, 7), (1, 0xFFFFFFFFFFFFFFF0), (2, 5), (3, 0x100)], wI 16 4 3 (2 * 16384 + 8), by decide +kernel⟩

theorem test_wit_lds2 : ∃ (i : Nat) (c : Nat) (s : State) (x : Ctx) (w : Nat),
    (canIssue s i c 0x11 false x w) ∧ (inScratch (memAddr x w) (memSize w) (memSize w)) ∧ (clean (s.m.eng i) (memAddr x w) (memSize w)) :=
  ⟨1, 2, eng (wI 17 4 3 (2 * 16384 + 8)) (cx [(0, 7), (1, 0xFFFFFFFFFFFFFFF0), (2, 5), (3, 0x100)]) (fun e => { e with scratch := Mem.write [] 0x108 8 0xF1F2F3F4F5F6F7F8, poisoned := [] }), cx [(0, 7), (1, 0xFFFFFFFFFFFFFFF0), (2, 5), (3, 0x100)], wI 17 4 3 (2 * 16384 + 8), by decide +kernel⟩

theorem test_wit_st2 : ∃ (i : Nat) (c : Nat) (s : State) (x : Ctx) (w : Nat),
    (canIssue s i c (0x12) false x w) ∧ ((fun _ => True) w) ∧ (inScratch (memAddr x w) ((memSize) w) ((memSize) w)) ∧ (Mem.wf (s.m.eng i).scratch = true) :=
  ⟨1, 2, eng (wI 18 1 3 (2 * 16384 + 8)) (cx [(0, 7), (1, 0xFFFFFFFFFFFFFFF0), (2, 5), (3, 0x100)]) (fun e => { e with scratch := Mem.write [] 0x108 8 0xF1F2F3F4F5F6F7F8, poisoned := [33, 40] }), cx [(0, 7), (1, 0xFFFFFFFFFFFFFFF0), (2, 5), (3, 0x100)], wI 18 1 3 (2 * 16384 + 8), by decide +kernel⟩

theorem test_wit_ld3 : ∃ (i : Nat) (c : Nat) (s : State) (x : Ctx) (w : Nat),
    (canIssue s i c 0x10 false x w) ∧ (inScratch (memAddr x w) (memSize w) (memSize w)) ∧ (clean (s.m.eng i) (memAddr x w) (memSize w)) :=
  ⟨1, 2, eng (wI 16 4 3 (3 * 16384 + 8)) (cx [(0, 7), (1, 0xFFFFFFFFFFFFFFF0), (2, 5), (3, 0x100)]) (fun e => { e with scratch := Mem.write [] 0x108 8 0xF1F2F3F4F5F6F7F8, poisoned := [] }), cx [(0, 7), (1, 0xFFFFFFFFFFFFFFF0), (2, 5), (3, 0x100)], wI 16 4 3 (3 * 16384 + 8), by decide +kernel⟩

theorem test_wit_lds3 : ∃ (i : Nat) (c : Nat) (s : State) (x : Ctx) (w : Nat),
    (canIssue s i c 0x11 false x w) ∧ (inScratch (memAddr x w) (memSize w) (memSize w)) ∧ (clean (s.m.eng i) (memAddr x w) (memSize w)) :=
  ⟨1, 2, eng (wI 17 4 3 (3 * 16384 + 8)) (cx [(0, 7), (1, 0xFFFFFFFFFFFFFFF0), (2, 5), (3, 0x100)]) (fun e => { e with scratch := Mem.write [] 0x108 8 0xF1F2F3F4F5F6F7F8, poisoned := [] }), cx [(0, 7), (1, 0xFFFFFFFFFFFFFFF0), (2, 5), (3, 0x100)], wI 17 4 3 (3 * 16384 + 8), by decide +kernel⟩

theorem test_wit_st3 : ∃ (i : Nat) (c : Nat) (s : State) (x : Ctx) (w : Nat),
    (canIssue s i c (0x12) false x w) ∧ ((fun _ => True) w) ∧ (inScratch (memAddr x w) ((memSize) w) ((memSize) w)) ∧ (Mem.wf (s.m.eng i).scratch = true) :=
  ⟨1, 2, eng (wI 18 1 3 (3 * 16384 + 8)) (cx [(0, 7), (1, 0xFFFFFFFFFFFFFFF0), (2, 5), (3, 0x100)]) (fun e => { e with scratch := Mem.write [] 0x108 8 0xF1F2F3F4F5F6F7F8, poisoned := [33, 40] }), cx [(0, 7), (1, 0xFFFFFFFFFFFFFFF0), (2, 5), (3, 0x100)], wI 18 1 3 (3 * 16384 + 8), by decide +kernel⟩

theorem test_wit_wst : ∃ (i : Nat) (c : Nat) (s : State) (x : Ctx) (w : Nat),
    (canIssue s i c (0x14) false x w) ∧ ((fun w => fld w 25 23 = 0 ∧ fld w 15 14 = 0) w) ∧ (inScratch (memAddr x w) ((fun _ => 64) w) ((fun _ => 64) w)) ∧ (Mem.wf (s.m.eng i).scratch = true) :=
  ⟨1, 2, eng (wI 20 1 3 0x40) (cx [(0, 7), (1, 0xFFFFFFFFFFFFFFF0), (2, 5), (3, 0x100)]) (fun e => { e with scratch := Mem.write [] 0x108 8 0xF1F2F3F4F5F6F7F8, poisoned := [] }), cx [(0, 7), (1, 0xFFFFFFFFFFFFFFF0), (2, 5), (3, 0x100)], wI 20 1 3 0x40, by decide +kernel⟩

theorem test_wit_wld : ∃ (i : Nat) (c : Nat) (s : State) (x : Ctx) (w : Nat),
    (canIssue s i c 0x13 false x w) ∧ (fld w 25 23 = 0) ∧ (fld w 15 14 = 0) ∧ (inScratch (memAddr x w) 64 64) ∧ (clean (s.m.eng i) (memAddr x w) 64) :=
  ⟨1, 2, eng (wI 19 1 3 0) (cx [(0, 7), (1, 0xFFFFFFFFFFFFFFF0), (2, 5), (3, 0x100)]) (fun e => { e with scratch := Mem.write [] 0x108 8 0xF1F2F3F4F5F6F7F8, poisoned := [] }), cx [(0, 7), (1, 0xFFFFFFFFFFFFFFF0), (2, 5), (3, 0x100)], wI 19 1 3 0, by decide +kernel⟩

theorem test_wit_xtr : ∃ (i : Nat) (c : Nat) (s : State) (x : Ctx) (w : Nat),
    (canIssue s i c 0x18 false x w) ∧ (fld w 3 0 = 0) ∧ (posX w + lenX w ≤ 512) :=
  ⟨1, 2, eng (24 * 2 ^ 26 + 4 * 2 ^ 21 + 3 * 2 ^ 19 + 7 * 2 ^ 16 + 0 * 1024 + 63 * 16) (cx [(0, 7), (1, 0xFFFFFFFFFFFFFFF0), (2, 5), (3, 0x100)]), cx [(0, 7), (1, 0xFFFFFFFFFFFFFFF0), (2, 5), (3, 0x100)], 24 * 2 ^ 26 + 4 * 2 ^ 21 + 3 * 2 ^ 19 + 7 * 2 ^ 16 + 0 * 1024 + 63 * 16, by decide +kernel⟩

theorem test_wit_spl : ∃ (i : Nat) (c : Nat) (s : State) (x : Ctx) (w : Nat),
    (canIssue s i c 0x19 false x w) ∧ (fld w 3 0 = 0) ∧ (posX w + lenX w ≤ 512) :=
  ⟨1, 2, eng (25 * 2 ^ 26 + 1 * 2 ^ 21 + 3 * 2 ^ 19 + 7 * 2 ^ 16 + 0 * 1024 + 63 * 16) (cx [(0, 7), (1, 0xFFFFFFFFFFFFFFF0), (2, 5), (3, 0x100)]), cx [(0, 7), (1, 0xFFFFFFFFFFFFFFF0), (2, 5), (3, 0x100)], 25 * 2 ^ 26 + 1 * 2 ^ 21 + 3 * 2 ^ 19 + 7 * 2 ^ 16 + 0 * 1024 + 63 * 16, by decide +kernel⟩

theorem test_wit_wget : ∃ (i : Nat) (c : Nat) (s : State) (x : Ctx) (w : Nat),
    (canIssue s i c 0x1A false x w) ∧ (fld w 10 2 = 0) :=
  ⟨1, 2, eng (wI 26 4 2 1) (cx [(0, 7), (1, 0xFFFFFFFFFFFFFFF0), (2, 5), (3, 0x100)]), cx [(0, 7), (1, 0xFFFFFFFFFFFFFFF0), (2, 5), (3, 0x100)], wI 26 4 2 1, by decide +kernel⟩

theorem test_wit_wput : ∃ (i : Nat) (c : Nat) (s : State) (x : Ctx) (w : Nat),
    (canIssue s i c 0x1B false x w) ∧ (fld w 25 21 = 0) ∧ (fld w 10 2 = 0) :=
  ⟨1, 2, eng (wI 27 0 2 (1 * 2048 + 1)) (cx [(0, 7), (1, 0xFFFFFFFFFFFFFFF0), (2, 5), (3, 0x100)]), cx [(0, 7), (1, 0xFFFFFFFFFFFFFFF0), (2, 5), (3, 0x100)], wI 27 0 2 (1 * 2048 + 1), by decide +kernel⟩

theorem test_wit_wop : ∃ (i : Nat) (c : Nat) (s : State) (x : Ctx) (w : Nat),
    (canIssue s i c 0x1C false x w) ∧ (fld w 19 16 = 0) ∧ (fld w 12 0 = 0) ∧ (fld w 15 13 ≤ 4) :=
  ⟨1, 2, eng (28 * 2 ^ 26 + 1 * 2 ^ 24 + 2 * 2 ^ 22 + 3 * 2 ^ 20 + 0 * 2 ^ 13) (cx [(0, 7), (1, 0xFFFFFFFFFFFFFFF0), (2, 5), (3, 0x100)]), cx [(0, 7), (1, 0xFFFFFFFFFFFFFFF0), (2, 5), (3, 0x100)], 28 * 2 ^ 26 + 1 * 2 ^ 24 + 2 * 2 ^ 22 + 3 * 2 ^ 20 + 0 * 2 ^ 13, by decide +kernel⟩

theorem test_wit_wop1 : ∃ (i : Nat) (c : Nat) (s : State) (x : Ctx) (w : Nat),
    (canIssue s i c 0x1C false x w) ∧ (fld w 19 16 = 0) ∧ (fld w 12 0 = 0) ∧ (fld w 15 13 ≤ 4) :=
  ⟨1, 2, eng (28 * 2 ^ 26 + 1 * 2 ^ 24 + 2 * 2 ^ 22 + 3 * 2 ^ 20 + 1 * 2 ^ 13) (cx [(0, 7), (1, 0xFFFFFFFFFFFFFFF0), (2, 5), (3, 0x100)]), cx [(0, 7), (1, 0xFFFFFFFFFFFFFFF0), (2, 5), (3, 0x100)], 28 * 2 ^ 26 + 1 * 2 ^ 24 + 2 * 2 ^ 22 + 3 * 2 ^ 20 + 1 * 2 ^ 13, by decide +kernel⟩

theorem test_wit_wop2 : ∃ (i : Nat) (c : Nat) (s : State) (x : Ctx) (w : Nat),
    (canIssue s i c 0x1C false x w) ∧ (fld w 19 16 = 0) ∧ (fld w 12 0 = 0) ∧ (fld w 15 13 ≤ 4) :=
  ⟨1, 2, eng (28 * 2 ^ 26 + 1 * 2 ^ 24 + 2 * 2 ^ 22 + 3 * 2 ^ 20 + 2 * 2 ^ 13) (cx [(0, 7), (1, 0xFFFFFFFFFFFFFFF0), (2, 5), (3, 0x100)]), cx [(0, 7), (1, 0xFFFFFFFFFFFFFFF0), (2, 5), (3, 0x100)], 28 * 2 ^ 26 + 1 * 2 ^ 24 + 2 * 2 ^ 22 + 3 * 2 ^ 20 + 2 * 2 ^ 13, by decide +kernel⟩

theorem test_wit_wop3 : ∃ (i : Nat) (c : Nat) (s : State) (x : Ctx) (w : Nat),
    (canIssue s i c 0x1C false x w) ∧ (fld w 19 16 = 0) ∧ (fld w 12 0 = 0) ∧ (fld w 15 13 ≤ 4) :=
  ⟨1, 2, eng (28 * 2 ^ 26 + 1 * 2 ^ 24 + 2 * 2 ^ 22 + 3 * 2 ^ 20 + 3 * 2 ^ 13) (cx [(0, 7), (1, 0xFFFFFFFFFFFFFFF0), (2, 5), (3, 0x100)]), cx [(0, 7), (1, 0xFFFFFFFFFFFFFFF0), (2, 5), (3, 0x100)], 28 * 2 ^ 26 + 1 * 2 ^ 24 + 2 * 2 ^ 22 + 3 * 2 ^ 20 + 3 * 2 ^ 13, by decide +kernel⟩

theorem test_wit_wop4 : ∃ (i : Nat) (c : Nat) (s : State) (x : Ctx) (w : Nat),
    (canIssue s i c 0x1C false x w) ∧ (fld w 19 16 = 0) ∧ (fld w 12 0 = 0) ∧ (fld w 15 13 ≤ 4) :=
  ⟨1, 2, eng (28 * 2 ^ 26 + 1 * 2 ^ 24 + 2 * 2 ^ 22 + 3 * 2 ^ 20 + 4 * 2 ^ 13) (cx [(0, 7), (1, 0xFFFFFFFFFFFFFFF0), (2, 5), (3, 0x100)]), cx [(0, 7), (1, 0xFFFFFFFFFFFFFFF0), (2, 5), (3, 0x100)], 28 * 2 ^ 26 + 1 * 2 ^ 24 + 2 * 2 ^ 22 + 3 * 2 ^ 20 + 4 * 2 ^ 13, by decide +kernel⟩

theorem test_wit_wred : ∃ (i : Nat) (c : Nat) (s : State) (x : Ctx) (w : Nat),
    (canIssue s i c 0x30 false x w) ∧ (fld w 19 16 = 0) ∧ (fld w 10 0 = 0) ∧ (reduceOk (fld w 15 13) (fld w 12 11) = true) :=
  ⟨1, 2, eng (48 * 2 ^ 26 + 1 * 2 ^ 24 + 2 * 2 ^ 22 + 3 * 2 ^ 20 + 0 * 2 ^ 13 + 2 * 2 ^ 11) (cx [(0, 7), (1, 0xFFFFFFFFFFFFFFF0), (2, 5), (3, 0x100)]), cx [(0, 7), (1, 0xFFFFFFFFFFFFFFF0), (2, 5), (3, 0x100)], 48 * 2 ^ 26 + 1 * 2 ^ 24 + 2 * 2 ^ 22 + 3 * 2 ^ 20 + 0 * 2 ^ 13 + 2 * 2 ^ 11, by decide +kernel⟩

theorem test_wit_wred1 : ∃ (i : Nat) (c : Nat) (s : State) (x : Ctx) (w : Nat),
    (canIssue s i c 0x30 false x w) ∧ (fld w 19 16 = 0) ∧ (fld w 10 0 = 0) ∧ (reduceOk (fld w 15 13) (fld w 12 11) = true) :=
  ⟨1, 2, eng (48 * 2 ^ 26 + 1 * 2 ^ 24 + 2 * 2 ^ 22 + 3 * 2 ^ 20 + 1 * 2 ^ 13 + 2 * 2 ^ 11) (cx [(0, 7), (1, 0xFFFFFFFFFFFFFFF0), (2, 5), (3, 0x100)]), cx [(0, 7), (1, 0xFFFFFFFFFFFFFFF0), (2, 5), (3, 0x100)], 48 * 2 ^ 26 + 1 * 2 ^ 24 + 2 * 2 ^ 22 + 3 * 2 ^ 20 + 1 * 2 ^ 13 + 2 * 2 ^ 11, by decide +kernel⟩

theorem test_wit_wred2 : ∃ (i : Nat) (c : Nat) (s : State) (x : Ctx) (w : Nat),
    (canIssue s i c 0x30 false x w) ∧ (fld w 19 16 = 0) ∧ (fld w 10 0 = 0) ∧ (reduceOk (fld w 15 13) (fld w 12 11) = true) :=
  ⟨1, 2, eng (48 * 2 ^ 26 + 1 * 2 ^ 24 + 2 * 2 ^ 22 + 3 * 2 ^ 20 + 2 * 2 ^ 13 + 2 * 2 ^ 11) (cx [(0, 7), (1, 0xFFFFFFFFFFFFFFF0), (2, 5), (3, 0x100)]), cx [(0, 7), (1, 0xFFFFFFFFFFFFFFF0), (2, 5), (3, 0x100)], 48 * 2 ^ 26 + 1 * 2 ^ 24 + 2 * 2 ^ 22 + 3 * 2 ^ 20 + 2 * 2 ^ 13 + 2 * 2 ^ 11, by decide +kernel⟩

theorem test_wit_wred3 : ∃ (i : Nat) (c : Nat) (s : State) (x : Ctx) (w : Nat),
    (canIssue s i c 0x30 false x w) ∧ (fld w 19 16 = 0) ∧ (fld w 10 0 = 0) ∧ (reduceOk (fld w 15 13) (fld w 12 11) = true) :=
  ⟨1, 2, eng (48 * 2 ^ 26 + 1 * 2 ^ 24 + 2 * 2 ^ 22 + 3 * 2 ^ 20 + 3 * 2 ^ 13 + 2 * 2 ^ 11) (cx [(0, 7), (1, 0xFFFFFFFFFFFFFFF0), (2, 5), (3, 0x100)]), cx [(0, 7), (1, 0xFFFFFFFFFFFFFFF0), (2, 5), (3, 0x100)], 48 * 2 ^ 26 + 1 * 2 ^ 24 + 2 * 2 ^ 22 + 3 * 2 ^ 20 + 3 * 2 ^ 13 + 2 * 2 ^ 11, by decide +kernel⟩

theorem test_wit_wred4 : ∃ (i : Nat) (c : Nat) (s : State) (x : Ctx) (w : Nat),
    (canIssue s i c 0x30 false x w) ∧ (fld w 19 16 = 0) ∧ (fld w 10 0 = 0) ∧ (reduceOk (fld w 15 13) (fld w 12 11) = true) :=
  ⟨1, 2, eng (48 * 2 ^ 26 + 1 * 2 ^ 24 + 2 * 2 ^ 22 + 3 * 2 ^ 20 + 4 * 2 ^ 13 + 2 * 2 ^ 11) (cx [(0, 7), (1, 0xFFFFFFFFFFFFFFF0), (2, 5), (3, 0x100)]), cx [(0, 7), (1, 0xFFFFFFFFFFFFFFF0), (2, 5), (3, 0x100)], 48 * 2 ^ 26 + 1 * 2 ^ 24 + 2 * 2 ^ 22 + 3 * 2 ^ 20 + 4 * 2 ^ 13 + 2 * 2 ^ 11, by decide +kernel⟩

theorem test_wit_wred5 : ∃ (i : Nat) (c : Nat) (s : State) (x : Ctx) (w : Nat),
    (canIssue s i c 0x30 false x w) ∧ (fld w 19 16 = 0) ∧ (fld w 10 0 = 0) ∧ (reduceOk (fld w 15 13) (fld w 12 11) = true) :=
  ⟨1, 2, eng (48 * 2 ^ 26 + 1 * 2 ^ 24 + 2 * 2 ^ 22 + 3 * 2 ^ 20 + 5 * 2 ^ 13 + 2 * 2 ^ 11) (cx [(0, 7), (1, 0xFFFFFFFFFFFFFFF0), (2, 5), (3, 0x100)]), cx [(0, 7), (1, 0xFFFFFFFFFFFFFFF0), (2, 5), (3, 0x100)], 48 * 2 ^ 26 + 1 * 2 ^ 24 + 2 * 2 ^ 22 + 3 * 2 ^ 20 + 5 * 2 ^ 13 + 2 * 2 ^ 11, by decide +kernel⟩

theorem test_wit_send : ∃ (i : Nat) (c : Nat) (s : State) (x : Ctx) (w : Nat),
    (canIssue s i c 0x20 false x w) ∧ (fld w 15 0 = 0) ∧ (sendRefused s.gen i (Hdr.ofBits (x.wide (fld w 25 24))) (fld w 23 21) = false) ∧ ((fld w 23 21 ≠ 0 → inScratch (x.sreg (fSA w)).toNat (64 * fld w 23 21) 64 ∧ clean (s.m.eng i) (x.sreg (fSA w)).toNat (64 * fld w 23 21))) ∧ (((s.m.eng i).sendQ.filter fun q => q.ctx < 8).length < 4) ∧ (((Hdr.ofBits (x.wide (fld w 25 24))).np = true → x.sends + x.rq.length < 8)) :=
  ⟨1, 2, eng (32 * 2 ^ 26 + 1 * 2 ^ 24 + 0 * 2 ^ 21 + 3 * 2 ^ 16) (cx [(0, 7), (1, 0xFFFFFFFFFFFFFFF0), (2, 5), (3, 0x100)] fun x => { x with w := x.w.set 1 { hh 0x21 0 1 0x00 with len := 64 }.bits }) (fun e => { e with scratch := Mem.write [] 0x108 8 0xF1F2F3F4F5F6F7F8, poisoned := [] }), cx [(0, 7), (1, 0xFFFFFFFFFFFFFFF0), (2, 5), (3, 0x100)] fun x => { x with w := x.w.set 1 { hh 0x21 0 1 0x00 with len := 64 }.bits }, 32 * 2 ^ 26 + 1 * 2 ^ 24 + 0 * 2 ^ 21 + 3 * 2 ^ 16, by decide +kernel⟩

theorem test_wit_sendData : ∃ (i : Nat) (c : Nat) (s : State) (x : Ctx) (w : Nat),
    (canIssue s i c 0x20 false x w) ∧ (fld w 15 0 = 0) ∧ (sendRefused s.gen i (Hdr.ofBits (x.wide (fld w 25 24))) (fld w 23 21) = false) ∧ ((fld w 23 21 ≠ 0 → inScratch (x.sreg (fSA w)).toNat (64 * fld w 23 21) 64 ∧ clean (s.m.eng i) (x.sreg (fSA w)).toNat (64 * fld w 23 21))) ∧ (((s.m.eng i).sendQ.filter fun q => q.ctx < 8).length < 4) ∧ (((Hdr.ofBits (x.wide (fld w 25 24))).np = true → x.sends + x.rq.length < 8)) :=
  ⟨1, 2, eng (32 * 2 ^ 26 + 1 * 2 ^ 24 + 1 * 2 ^ 21 + 3 * 2 ^ 16) (cx [(0, 7), (1, 0xFFFFFFFFFFFFFFF0), (2, 5), (3, 0x100)] fun x => { x with w := x.w.set 1 { hh 0x21 3 1 0x21 with len := 64 }.bits }) (fun e => { e with scratch := Mem.write [] 0x108 8 0xF1F2F3F4F5F6F7F8, poisoned := [] }), cx [(0, 7), (1, 0xFFFFFFFFFFFFFFF0), (2, 5), (3, 0x100)] fun x => { x with w := x.w.set 1 { hh 0x21 3 1 0x21 with len := 64 }.bits }, 32 * 2 ^ 26 + 1 * 2 ^ 24 + 1 * 2 ^ 21 + 3 * 2 ^ 16, by decide +kernel⟩

theorem test_wit_sendFull : ∃ (i : Nat) (c : Nat) (s : State) (x : Ctx) (w : Nat),
    (canIssue s i c 0x20 false x w) ∧ (fld w 15 0 = 0) ∧ (sendRefused s.gen i (Hdr.ofBits (x.wide (fld w 25 24))) (fld w 23 21) = false) ∧ ((fld w 23 21 ≠ 0 → inScratch (x.sreg (fSA w)).toNat (64 * fld w 23 21) 64 ∧ clean (s.m.eng i) (x.sreg (fSA w)).toNat (64 * fld w 23 21))) ∧ (4 ≤ ((s.m.eng i).sendQ.filter fun q => q.ctx < 8).length) :=
  ⟨1, 2, eng (32 * 2 ^ 26 + 1 * 2 ^ 24 + 0 * 2 ^ 21 + 3 * 2 ^ 16) (cx [(0, 7), (1, 0xFFFFFFFFFFFFFFF0), (2, 5), (3, 0x100)] fun x => { x with w := x.w.set 1 { hh 0x21 0 1 0x00 with len := 64 }.bits }) (fun e => { e with sendQ := (List.replicate 4 ⟨0, pk (hh 0x21 0 1 0), true⟩) }), cx [(0, 7), (1, 0xFFFFFFFFFFFFFFF0), (2, 5), (3, 0x100)] fun x => { x with w := x.w.set 1 { hh 0x21 0 1 0x00 with len := 64 }.bits }, 32 * 2 ^ 26 + 1 * 2 ^ 24 + 0 * 2 ^ 21 + 3 * 2 ^ 16, by decide +kernel⟩

theorem test_wit_sendl : ∃ (i : Nat) (c : Nat) (s : State) (x : Ctx) (w : Nat),
    (canIssue s i c 0x21 false x w) ∧ (fld w 3 0 = 0) ∧ (sendRefused s.gen i (Hdr.ofBits (x.wide (fld w 25 24))) (fld w 23 21) = false) ∧ ((Hdr.ofBits (x.wide (fld w 25 24))).np = false) ∧ ((Hdr.ofBits (x.wide (fld w 25 24))).mcast = false) ∧ ((fld w 23 21 ≠ 0 → inScratch (x.sreg (fSA w)).toNat (64 * fld w 23 21) 64 ∧ clean (s.m.eng i) (x.sreg (fSA w)).toNat (64 * fld w 23 21))) ∧ (inScratch (x.sreg (fSB w)).toNat (2 * (fld w 10 4 + 1)) 2) ∧ (clean (s.m.eng i) (x.sreg (fSB w)).toNat (2 * (fld w 10 4 + 1))) ∧ (x.copies = 0) ∧ (fld w 10 4 + 1 + ((s.m.eng i).sendQ.filter fun q => q.ctx < 8).length ≤ 4) :=
  ⟨1, 2, eng (33 * 2 ^ 26 + 1 * 2 ^ 24 + 1 * 2 ^ 21 + 3 * 2 ^ 16 + 4 * 2 ^ 11 + 2 * 16) (cx [(3, 0x100), (4, 0x200)] fun x => { x with w := x.w.set 1 { hh 0x21 3 1 0x21 with len := 64 }.bits }) (fun e => { e with scratch := Mem.write (Mem.write [] 0x100 8 0xABCD) 0x200 6 0x012301050106 }), cx [(3, 0x100), (4, 0x200)] fun x => { x with w := x.w.set 1 { hh 0x21 3 1 0x21 with len := 64 }.bits }, 33 * 2 ^ 26 + 1 * 2 ^ 24 + 1 * 2 ^ 21 + 3 * 2 ^ 16 + 4 * 2 ^ 11 + 2 * 16, by decide +kernel⟩

theorem test_wit_recvEmpty : ∃ (i : Nat) (c : Nat) (s : State) (x : Ctx) (w : Nat),
    (canIssue s i c 0x22 false x w) ∧ (fld w 13 0 = 0) ∧ (x.rq = []) :=
  ⟨1, 2, eng (wI 34 4 3 0) (cx [(0, 7), (1, 0xFFFFFFFFFFFFFFF0), (2, 5), (3, 0x100)]), cx [(0, 7), (1, 0xFFFFFFFFFFFFFFF0), (2, 5), (3, 0x100)], wI 34 4 3 0, by decide +kernel⟩

theorem test_wit_recv : ∃ (i : Nat) (c : Nat) (s : State) (x : Ctx) (w : Nat) (p : Pkt) (rest : List Pkt),
    (canIssue s i c 0x22 false x w) ∧ (fld w 13 0 = 0) ∧ (x.rq = p :: rest) ∧ ((p.data ≠ [] → inScratch (x.sreg (fSA w)).toNat (64 * p.data.length) 64)) ∧ (Mem.wf (s.m.eng i).scratch = true) :=
  ⟨1, 2, eng (wI 34 4 3 0x8000) (cx [(0, 7), (1, 0xFFFFFFFFFFFFFFF0), (2, 5), (3, 0x100)] fun x => { x with rq := [pk { hh 0x21 2 1 0x91 with len := 60 } [0x55]] }) (fun e => { e with scratch := Mem.write [] 0x108 8 0xF1F2F3F4F5F6F7F8, poisoned := [] }), cx [(0, 7), (1, 0xFFFFFFFFFFFFFFF0), (2, 5), (3, 0x100)] fun x => { x with rq := [pk { hh 0x21 2 1 0x91 with len := 60 } [0x55]] }, wI 34 4 3 0x8000, pk { hh 0x21 2 1 0x91 with len := 60 } [0x55], [], by decide +kernel⟩

theorem test_wit_finish : ∃ (i : Nat) (c : Nat) (s : State) (x : Ctx) (w : Nat),
    (canIssue s i c 0x23 true x w) ∧ (fld w 11 0 = 0) ∧ (x.inv = none) ∧ ((x.sreg (fSA w)).toNat ≤ 256) :=
  ⟨1, 2, eng (wI 35 0 0 0x1000) (cx [(0, 7), (1, 0xFFFFFFFFFFFFFFF0), (2, 5), (3, 0x100)] fun x => { x with roots := [1] }) (fun e => { e with coll := [(1, ⟨0, 0, 0, 0, some 2, false⟩), (2, ⟨0, 0, 0, 0, some 1, false⟩)] }), cx [(0, 7), (1, 0xFFFFFFFFFFFFFFF0), (2, 5), (3, 0x100)] fun x => { x with roots := [1] }, wI 35 0 0 0x1000, by decide +kernel⟩

theorem test_wit_finishInv : ∃ (i : Nat) (c : Nat) (s : State) (x : Ctx) (w : Nat) (h : Hdr),
    (canIssue s i c 0x23 true x w) ∧ (fld w 11 0 = 0) ∧ (x.inv = some h) ∧ (h.k ≠ 0) ∧ ((x.sreg (fSA w)).toNat ≤ 256) ∧ (((x.sreg (fSA w)).toNat ≠ 0 → inScratch (x.sreg (fSD w)).toNat (x.sreg (fSA w)).toNat 1 ∧ clean (s.m.eng i) (x.sreg (fSD w)).toNat (x.sreg (fSA w)).toNat)) :=
  ⟨1, 2, eng (wI 35 3 5 0x3000) (cx [(3, 0x100), (5, 0)] fun x => { x with inv := some (hh 0x22 0 1 0x52) }) (fun e => { e with scratch := Mem.write [] 0x108 8 0xF1F2F3F4F5F6F7F8, poisoned := [] }), cx [(3, 0x100), (5, 0)] fun x => { x with inv := some (hh 0x22 0 1 0x52) }, wI 35 3 5 0x3000, hh 0x22 0 1 0x52, by decide +kernel⟩

theorem test_wit_finishInvIn : ∃ (i : Nat) (c : Nat) (s : State) (x : Ctx) (w : Nat) (h : Hdr),
    (canIssue s i c 0x23 true x w) ∧ (fld w 11 0 = 0) ∧ (x.inv = some h) ∧ (h.k ≠ 0) ∧ ((x.sreg (fSA w)).toNat ≤ 256) ∧ (((x.sreg (fSA w)).toNat ≠ 0 → inScratch (x.sreg (fSD w)).toNat (x.sreg (fSA w)).toNat 1 ∧ clean (s.m.eng i) (x.sreg (fSD w)).toNat (x.sreg (fSA w)).toNat)) :=
  ⟨1, 2, eng (wI 35 3 5 0x3000) (cx [(3, 0x100), (5, 26)] fun x => { x with inv := some (hh 0x22 0 1 0x52) }) (fun e => { e with scratch := Mem.write [] 0x108 8 0xF1F2F3F4F5F6F7F8, poisoned := [] }), cx [(3, 0x100), (5, 26)] fun x => { x with inv := some (hh 0x22 0 1 0x52) }, wI 35 3 5 0x3000, hh 0x22 0 1 0x52, by decide +kernel⟩

theorem test_wit_finishInvData : ∃ (i : Nat) (c : Nat) (s : State) (x : Ctx) (w : Nat) (h : Hdr),
    (canIssue s i c 0x23 true x w) ∧ (fld w 11 0 = 0) ∧ (x.inv = some h) ∧ (h.k ≠ 0) ∧ ((x.sreg (fSA w)).toNat ≤ 256) ∧ (((x.sreg (fSA w)).toNat ≠ 0 → inScratch (x.sreg (fSD w)).toNat (x.sreg (fSA w)).toNat 1 ∧ clean (s.m.eng i) (x.sreg (fSD w)).toNat (x.sreg (fSA w)).toNat)) :=
  ⟨1, 2, eng (wI 35 3 5 0x3000) (cx [(3, 0x100), (5, 27)] fun x => { x with inv := some (hh 0x22 0 1 0x52) }) (fun e => { e with scratch := Mem.write [] 0x108 8 0xF1F2F3F4F5F6F7F8, poisoned := [] }), cx [(3, 0x100), (5, 27)] fun x => { x with inv := some (hh 0x22 0 1 0x52) }, wI 35 3 5 0x3000, hh 0x22 0 1 0x52, by decide +kernel⟩

theorem test_wit_mrd : ∃ (i : Nat) (c : Nat) (s : State) (x : Ctx) (w : Nat) (k : Nat),
    (canIssue s i c 0x28 false x w) ∧ (fld w 23 21 = 0) ∧ (fld w 15 0 = 0) ∧ (memReady s i (x.sreg (fSA w)).toNat k x) :=
  ⟨1, 2, eng (40 * 2 ^ 26 + 1 * 2 ^ 24 + 3 * 2 ^ 16) (cx [(3, 0x1000), (4, 0xFFFFFFFFFFFFFFFF), (5, 0xF0), (6, 0x40)]), cx [(3, 0x1000), (4, 0xFFFFFFFFFFFFFFFF), (5, 0xF0), (6, 0x40)], 40 * 2 ^ 26 + 1 * 2 ^ 24 + 3 * 2 ^ 16, 0, by decide +kernel⟩

theorem test_wit_mwr : ∃ (i : Nat) (c : Nat) (s : State) (x : Ctx) (w : Nat) (k : Nat),
    (canIssue s i c 0x29 false x w) ∧ (fld w 23 21 = 0) ∧ (fld w 10 0 = 0) ∧ (memReady s i (x.sreg (fSA w)).toNat k x) :=
  ⟨1, 2, eng (41 * 2 ^ 26 + 1 * 2 ^ 24 + 3 * 2 ^ 16 + 4 * 2 ^ 11) (cx [(3, 0x1000), (4, 0xFFFFFFFFFFFFFFFF), (5, 0xF0), (6, 0x40)] fun x => { x with ops := [(0, .write)] }), cx [(3, 0x1000), (4, 0xFFFFFFFFFFFFFFFF), (5, 0xF0), (6, 0x40)] fun x => { x with ops := [(0, .write)] }, 41 * 2 ^ 26 + 1 * 2 ^ 24 + 3 * 2 ^ 16 + 4 * 2 ^ 11, 1, by decide +kernel⟩

theorem test_wit_mwrPart : ∃ (i : Nat) (c : Nat) (s : State) (x : Ctx) (w : Nat) (k : Nat),
    (canIssue s i c 0x29 false x w) ∧ (fld w 23 21 = 0) ∧ (fld w 10 0 = 0) ∧ (memReady s i (x.sreg (fSA w)).toNat k x) :=
  ⟨1, 2, eng (41 * 2 ^ 26 + 1 * 2 ^ 24 + 3 * 2 ^ 16 + 5 * 2 ^ 11) (cx [(3, 0x1000), (4, 0xFFFFFFFFFFFFFFFF), (5, 0xF0), (6, 0x40)]), cx [(3, 0x1000), (4, 0xFFFFFFFFFFFFFFFF), (5, 0xF0), (6, 0x40)], 41 * 2 ^ 26 + 1 * 2 ^ 24 + 3 * 2 ^ 16 + 5 * 2 ^ 11, 0, by decide +kernel⟩

theorem test_wit_mrds : ∃ (i : Nat) (c : Nat) (s : State) (x : Ctx) (w : Nat) (k : Nat),
    (canIssue s i c 0x2B false x w) ∧ (fld w 25 21 = 0) ∧ (fld w 10 0 = 0) ∧ (memReady s i (x.sreg (fSA w)).toNat k x) ∧ (inScratch (x.sreg (fSB w)).toNat 64 64) :=
  ⟨1, 2, eng (43 * 2 ^ 26 + 3 * 2 ^ 16 + 6 * 2 ^ 11) (cx [(3, 0x1000), (4, 0xFFFFFFFFFFFFFFFF), (5, 0xF0), (6, 0x40)]), cx [(3, 0x1000), (4, 0xFFFFFFFFFFFFFFFF), (5, 0xF0), (6, 0x40)], 43 * 2 ^ 26 + 3 * 2 ^ 16 + 6 * 2 ^ 11, 0, by decide +kernel⟩

theorem test_wit_mwait : ∃ (i : Nat) (c : Nat) (s : State) (x : Ctx) (w : Nat),
    (canIssue s i c 0x2C true x w) ∧ (fld w 25 16 = 0) :=
  ⟨1, 2, eng (wI 44 0 0 1) (cx [] fun x => { x with ops := [(0, .write)], issued := 5 }), cx [] fun x => { x with ops := [(0, .write)], issued := 5 }, wI 44 0 0 1, by decide +kernel⟩

theorem test_wit_mwaitWait : ∃ (i : Nat) (c : Nat) (s : State) (x : Ctx) (w : Nat),
    (canIssue s i c 0x2C true x w) ∧ (fld w 25 16 = 0) :=
  ⟨1, 2, eng (wI 44 0 0 0) (cx [] fun x => { x with ops := [(0, .write)] }), cx [] fun x => { x with ops := [(0, .write)] }, wI 44 0 0 0, by decide +kernel⟩

theorem test_wit_mamo : ∃ (i : Nat) (c : Nat) (s : State) (x : Ctx) (w : Nat),
    (canIssue s i c 0x2A false x w) ∧ (fld w 0 0 = 0) ∧ (fld w 10 8 ≤ 3) ∧ (fld w 7 4 ≤ 0x0A) ∧ ((x.sreg (fSA w)).toNat % 2 ^ fld w 10 8 = 0) ∧ (atomFmtOk (0x40 + fld w 7 4) (fld w 3 1) (fld w 10 8) = true) ∧ ((x.sreg (fSA w)).toNat < 2 ^ 56) ∧ ((s.m.eng i).atom = []) :=
  ⟨1, 2, eng (42 * 2 ^ 26 + 4 * 2 ^ 21 + 3 * 2 ^ 16 + 5 * 2 ^ 11 + 3 * 2 ^ 8 + 0 * 16) (cx [(3, 0x1000), (4, 0xFFFFFFFFFFFFFFFF), (5, 0xF0), (6, 0x40)]), cx [(3, 0x1000), (4, 0xFFFFFFFFFFFFFFFF), (5, 0xF0), (6, 0x40)], 42 * 2 ^ 26 + 4 * 2 ^ 21 + 3 * 2 ^ 16 + 5 * 2 ^ 11 + 3 * 2 ^ 8 + 0 * 16, by decide +kernel⟩

theorem test_wit_contrib : ∃ (i : Nat) (c : Nat) (s : State) (x : Ctx) (w : Nat),
    (canIssue s i c 0x31 false x w) ∧ (fld w 21 21 = 0) ∧ (fld w 15 0 = 0) ∧ ((descOf s.gen s.m i (fld w 25 22)).valid = true) ∧ (inScratch (x.sreg (fSA w)).toNat (64 * (descOf s.gen s.m i (fld w 25 22)).flits) 64) ∧ (clean (s.m.eng i) (x.sreg (fSA w)).toNat (64 * (descOf s.gen s.m i (fld w 25 22)).flits)) ∧ ((collOf s.m i (fld w 25 22)).local_ = (collOf s.m i (fld w 25 22)).round) ∧ ((collOf s.m i (fld w 25 22)).round < 65536) ∧ ((collOf s.m i (fld w 25 22)).cnt0 + 1 < (descOf s.gen s.m i (fld w 25 22)).expect) ∧ (Mem.wf (s.m.eng i).scratch = true) :=
  ⟨1, 2, eng (49 * 2 ^ 26 + 3 * 2 ^ 22 + 3 * 2 ^ 16) (cx [(0, 7), (1, 0xFFFFFFFFFFFFFFF0), (2, 5), (3, 0x100)]) (fun e => { e with scratch := Mem.write [] 0x108 8 0xF1F2F3F4F5F6F7F8, poisoned := [] }) (fun m => m.setReg (engKey 1 0x23) (2 ^ 127 + 2 * 2 ^ 122 + 3 * 2 ^ 113 + 0x106 * 2 ^ 96 + 1 * 2 ^ 94 + 5 * 2 ^ 90 + 0x400 * 2 ^ 52 + 0x800 * 2 ^ 37 + 7 * 2 ^ 32)), cx [(0, 7), (1, 0xFFFFFFFFFFFFFFF0), (2, 5), (3, 0x100)], 49 * 2 ^ 26 + 3 * 2 ^ 22 + 3 * 2 ^ 16, by decide +kernel⟩

theorem test_wit_contribSecond : ∃ (i : Nat) (c : Nat) (s : State) (x : Ctx) (w : Nat),
    (canIssue s i c 0x31 false x w) ∧ (fld w 21 21 = 0) ∧ (fld w 15 0 = 0) ∧ ((descOf s.gen s.m i (fld w 25 22)).valid = true) ∧ (inScratch (x.sreg (fSA w)).toNat (64 * (descOf s.gen s.m i (fld w 25 22)).flits) 64) ∧ (clean (s.m.eng i) (x.sreg (fSA w)).toNat (64 * (descOf s.gen s.m i (fld w 25 22)).flits)) ∧ ((collOf s.m i (fld w 25 22)).local_ = (collOf s.m i (fld w 25 22)).round) ∧ ((collOf s.m i (fld w 25 22)).round < 65536) ∧ ((collOf s.m i (fld w 25 22)).cnt0 + 1 < (descOf s.gen s.m i (fld w 25 22)).expect) ∧ (Mem.wf (s.m.eng i).scratch = true) :=
  ⟨1, 2, eng (49 * 2 ^ 26 + 3 * 2 ^ 22 + 3 * 2 ^ 16) (cx [(0, 7), (1, 0xFFFFFFFFFFFFFFF0), (2, 5), (3, 0x100)]) (fun e => { e with scratch := Mem.write [] 0x108 8 0xF1F2F3F4F5F6F7F8, poisoned := [] , coll := [(3, ⟨9, 1, 0, 9, none, false⟩)] }) (fun m => m.setReg (engKey 1 0x23) (2 ^ 127 + 2 * 2 ^ 122 + 3 * 2 ^ 113 + 0x106 * 2 ^ 96 + 1 * 2 ^ 94 + 5 * 2 ^ 90 + 0x400 * 2 ^ 52 + 0x800 * 2 ^ 37 + 7 * 2 ^ 32)), cx [(0, 7), (1, 0xFFFFFFFFFFFFFFF0), (2, 5), (3, 0x100)], 49 * 2 ^ 26 + 3 * 2 ^ 22 + 3 * 2 ^ 16, by decide +kernel⟩

theorem test_wit_copen : ∃ (i : Nat) (c : Nat) (s : State) (x : Ctx) (w : Nat),
    (canIssue s i c 0x32 false x w) ∧ (fld w 21 0 = 0) ∧ ((descOf s.gen s.m i (fld w 25 22)).valid = true) :=
  ⟨1, 2, eng (50 * 2 ^ 26 + 3 * 2 ^ 22) (cx [(0, 7), (1, 0xFFFFFFFFFFFFFFF0), (2, 5), (3, 0x100)]) (fun e => e) (fun m => m.setReg (engKey 1 0x23) (2 ^ 127 + 2 * 2 ^ 122 + 3 * 2 ^ 113 + 0x106 * 2 ^ 96 + 1 * 2 ^ 94 + 5 * 2 ^ 90 + 0x400 * 2 ^ 52 + 0x800 * 2 ^ 37 + 7 * 2 ^ 32)), cx [(0, 7), (1, 0xFFFFFFFFFFFFFFF0), (2, 5), (3, 0x100)], 50 * 2 ^ 26 + 3 * 2 ^ 22, by decide +kernel⟩

theorem test_wit_wait : ∃ (i : Nat) (c : Nat) (s : State) (x : Ctx) (w : Nat),
    (canIssue s i c 0x38 true x w) ∧ (fld w 20 16 = 0) ∧ (fld w 15 0 ≠ 0) ∧ ((fld w 25 21 = 31 → fld w 15 0 = 1)) :=
  ⟨1, 2, eng (wI 56 7 0 3) (cx []) (fun e => { e with ev := [(7, 5)] }), cx [], wI 56 7 0 3, by decide +kernel⟩

theorem test_wit_waitLess : ∃ (i : Nat) (c : Nat) (s : State) (x : Ctx) (w : Nat),
    (canIssue s i c 0x38 true x w) ∧ (fld w 20 16 = 0) ∧ (fld w 15 0 ≠ 0) ∧ ((fld w 25 21 = 31 → fld w 15 0 = 1)) :=
  ⟨1, 2, eng (wI 56 7 0 3) (cx []) (fun e => { e with ev := [(7, 2)] }), cx [], wI 56 7 0 3, by decide +kernel⟩

theorem test_wit_waitTimer : ∃ (i : Nat) (c : Nat) (s : State) (x : Ctx) (w : Nat),
    (canIssue s i c 0x38 true x w) ∧ (fld w 20 16 = 0) ∧ (fld w 15 0 ≠ 0) ∧ ((fld w 25 21 = 31 → fld w 15 0 = 1)) :=
  ⟨1, 2, eng (wI 56 31 0 1) (cx [] fun x => { x with flag := true }), cx [] fun x => { x with flag := true }, wI 56 31 0 1, by decide +kernel⟩

theorem test_wit_waitOff : ∃ (i : Nat) (c : Nat) (s : State) (x : Ctx) (w : Nat),
    (canIssue s i c 0x38 true x w) ∧ (fld w 20 16 = 0) ∧ (fld w 15 0 ≠ 0) ∧ ((fld w 25 21 = 31 → fld w 15 0 = 1)) :=
  ⟨1, 2, eng (wI 56 31 0 1) (cx []), cx [], wI 56 31 0 1, by decide +kernel⟩

theorem test_wit_evsig : ∃ (i : Nat) (c : Nat) (s : State) (x : Ctx) (w : Nat),
    (canIssue s i c 0x39 false x w) ∧ (fld w 20 16 = 0) ∧ (fld w 25 21 ≠ 31) ∧ ((∀ k y, s.m.ctx? i k = some y → ∀ e n, y.st ≠ .waitEvent e n)) :=
  ⟨1, 2, eng (wI 57 7 0 0xFFFF) (cx []) (fun e => { e with ev := [(7, 2)] }), cx [], wI 57 7 0 0xFFFF, ⟨by decide +kernel, by decide +kernel, by decide +kernel, noWaiter (by decide +kernel)⟩⟩

theorem test_wit_timer : ∃ (i : Nat) (c : Nat) (s : State) (x : Ctx) (w : Nat),
    (canIssue s i c 0x3A false x w) ∧ (fld w 25 21 = 0) ∧ (fld w 15 0 = 0) :=
  ⟨1, 2, eng (wI 58 0 3 0) (cx [(0, 7), (1, 0xFFFFFFFFFFFFFFF0), (2, 5), (3, 0x100)]), cx [(0, 7), (1, 0xFFFFFFFFFFFFFFF0), (2, 5), (3, 0x100)], wI 58 0 3 0, by decide +kernel⟩

theorem test_wit_yield : ∃ (i : Nat) (c : Nat) (s : State) (x : Ctx) (w : Nat),
    (canIssue s i c 0x3B true x w) ∧ (fld w 25 0 = 0) :=
  ⟨1, 2, eng (wI 59 0 0 0) (cx []), cx [], wI 59 0 0 0, by decide +kernel⟩

theorem test_wit_mfs : ∃ (i : Nat) (c : Nat) (s : State) (x : Ctx) (w : Nat),
    (canIssue s i c 0x3C false x w) ∧ (fld w 20 5 = 0) ∧ (fld w 4 0 ≤ 7) :=
  ⟨1, 2, eng (wI 60 4 0 0) (cx [] fun x => { x with rq := [pk (hh 5 2 1 0x90)], entry := 3, ownerVport := 9 }) (fun e => { e with aband := 5, pen := some 66 }), cx [] fun x => { x with rq := [pk (hh 5 2 1 0x90)], entry := 3, ownerVport := 9 }, wI 60 4 0 0, by decide +kernel⟩

theorem test_wit_mfs1 : ∃ (i : Nat) (c : Nat) (s : State) (x : Ctx) (w : Nat),
    (canIssue s i c 0x3C false x w) ∧ (fld w 20 5 = 0) ∧ (fld w 4 0 ≤ 7) :=
  ⟨1, 2, eng (wI 60 4 0 1) (cx [] fun x => { x with rq := [pk (hh 5 2 1 0x90)], entry := 3, ownerVport := 9 }) (fun e => { e with aband := 5, pen := some 66 }), cx [] fun x => { x with rq := [pk (hh 5 2 1 0x90)], entry := 3, ownerVport := 9 }, wI 60 4 0 1, by decide +kernel⟩

theorem test_wit_mfs2 : ∃ (i : Nat) (c : Nat) (s : State) (x : Ctx) (w : Nat),
    (canIssue s i c 0x3C false x w) ∧ (fld w 20 5 = 0) ∧ (fld w 4 0 ≤ 7) :=
  ⟨1, 2, eng (wI 60 4 0 2) (cx [] fun x => { x with rq := [pk (hh 5 2 1 0x90)], entry := 3, ownerVport := 9 }) (fun e => { e with aband := 5, pen := some 66 }), cx [] fun x => { x with rq := [pk (hh 5 2 1 0x90)], entry := 3, ownerVport := 9 }, wI 60 4 0 2, by decide +kernel⟩

theorem test_wit_mfs3 : ∃ (i : Nat) (c : Nat) (s : State) (x : Ctx) (w : Nat),
    (canIssue s i c 0x3C false x w) ∧ (fld w 20 5 = 0) ∧ (fld w 4 0 ≤ 7) :=
  ⟨1, 2, eng (wI 60 4 0 3) (cx [] fun x => { x with rq := [pk (hh 5 2 1 0x90)], entry := 3, ownerVport := 9 }) (fun e => { e with aband := 5, pen := some 66 }), cx [] fun x => { x with rq := [pk (hh 5 2 1 0x90)], entry := 3, ownerVport := 9 }, wI 60 4 0 3, by decide +kernel⟩

theorem test_wit_mfs4 : ∃ (i : Nat) (c : Nat) (s : State) (x : Ctx) (w : Nat),
    (canIssue s i c 0x3C false x w) ∧ (fld w 20 5 = 0) ∧ (fld w 4 0 ≤ 7) :=
  ⟨1, 2, eng (wI 60 4 0 4) (cx [] fun x => { x with rq := [pk (hh 5 2 1 0x90)], entry := 3, ownerVport := 9 }) (fun e => { e with aband := 5, pen := some 66 }), cx [] fun x => { x with rq := [pk (hh 5 2 1 0x90)], entry := 3, ownerVport := 9 }, wI 60 4 0 4, by decide +kernel⟩

theorem test_wit_mfs5 : ∃ (i : Nat) (c : Nat) (s : State) (x : Ctx) (w : Nat),
    (canIssue s i c 0x3C false x w) ∧ (fld w 20 5 = 0) ∧ (fld w 4 0 ≤ 7) :=
  ⟨1, 2, eng (wI 60 4 0 5) (cx [] fun x => { x with rq := [pk (hh 5 2 1 0x90)], entry := 3, ownerVport := 9 }) (fun e => { e with aband := 5, pen := some 66 }), cx [] fun x => { x with rq := [pk (hh 5 2 1 0x90)], entry := 3, ownerVport := 9 }, wI 60 4 0 5, by decide +kernel⟩

theorem test_wit_mfs6 : ∃ (i : Nat) (c : Nat) (s : State) (x : Ctx) (w : Nat),
    (canIssue s i c 0x3C false x w) ∧ (fld w 20 5 = 0) ∧ (fld w 4 0 ≤ 7) :=
  ⟨1, 2, eng (wI 60 4 0 6) (cx [] fun x => { x with rq := [pk (hh 5 2 1 0x90)], entry := 3, ownerVport := 9 }) (fun e => { e with aband := 5, pen := some 66 }), cx [] fun x => { x with rq := [pk (hh 5 2 1 0x90)], entry := 3, ownerVport := 9 }, wI 60 4 0 6, by decide +kernel⟩

theorem test_wit_mfs7 : ∃ (i : Nat) (c : Nat) (s : State) (x : Ctx) (w : Nat),
    (canIssue s i c 0x3C false x w) ∧ (fld w 20 5 = 0) ∧ (fld w 4 0 ≤ 7) :=
  ⟨1, 2, eng (wI 60 4 0 7) (cx [] fun x => { x with rq := [pk (hh 5 2 1 0x90)], entry := 3, ownerVport := 9 }) (fun e => { e with aband := 5, pen := some 66 }), cx [] fun x => { x with rq := [pk (hh 5 2 1 0x90)], entry := 3, ownerVport := 9 }, wI 60 4 0 7, by decide +kernel⟩

theorem test_wit_mfc : ∃ (i : Nat) (c : Nat) (s : State) (x : Ctx) (w : Nat),
    (canIssue s i c 0x3D false x w) ∧ (fld w 15 0 = 0) :=
  ⟨1, 2, eng (wI 61 4 2 0) (cx [(0, 7), (1, 0xFFFFFFFFFFFFFFF0), (2, 5), (3, 0x100)]) (fun e => e) (fun m => m.setReg (key 0xA222 5) 77), cx [(0, 7), (1, 0xFFFFFFFFFFFFFFF0), (2, 5), (3, 0x100)], wI 61 4 2 0, by decide +kernel⟩

theorem test_wit_illegalOp : ∃ (i : Nat) (c : Nat) (s : State) (x : Ctx) (w : Nat) (instr : Nat → Nat → Instr),
    (instr ∈ engineRows) ∧ (canIssue s i c (w / 2 ^ 26) true x w) ∧ (engOpKnown (w / 2 ^ 26) = false) ∧ (i < 0x1000) ∧ (engNi s.gen i < 127) ∧ (x.roots = []) :=
  ⟨1, 2, eng (wI 62 0 0 0) (cx []), cx [], wI 62 0 0 0, .alu, ⟨by simp [engineRows], by decide +kernel⟩⟩

theorem test_wit_illegalOpMfc : ∃ (i : Nat) (c : Nat) (s : State) (x : Ctx) (w : Nat) (instr : Nat → Nat → Instr),
    (instr ∈ engineRows) ∧ (canIssue s i c (w / 2 ^ 26) true x w) ∧ (engOpKnown (w / 2 ^ 26) = false) ∧ (i < 0x1000) ∧ (engNi s.gen i < 127) ∧ (x.roots = []) :=
  ⟨1, 2, eng (wI 29 0 0 0) (cx []), cx [], wI 29 0 0 0, .mfc, ⟨by simp [engineRows], by decide +kernel⟩⟩

theorem test_wit_pcRange : ∃ (i : Nat) (c : Nat) (s : State) (x : Ctx) (w : Nat),
    (canIssue s i c 0x08 false x w) ∧ (fld w 15 13 = 0) ∧ (x.sreg (fSD w) = x.sreg (fSA w)) ∧ ((branchTarget x w < 0 ∨ 4095 < branchTarget x w)) ∧ (i < 0x1000) ∧ (engNi s.gen i < 127) ∧ (x.roots = []) :=
  ⟨1, 2, eng (wI 8 0 0 0x1FFC) (cx []), cx [], wI 8 0 0 0x1FFC, by decide +kernel⟩

theorem test_wit_pcRangeFar : ∃ (i : Nat) (c : Nat) (s : State) (x : Ctx) (w : Nat),
    (canIssue s i c 0x08 false x w) ∧ (fld w 15 13 = 0) ∧ (x.sreg (fSD w) = x.sreg (fSA w)) ∧ ((branchTarget x w < 0 ∨ 4095 < branchTarget x w)) ∧ (i < 0x1000) ∧ (engNi s.gen i < 127) ∧ (x.roots = []) :=
  ⟨1, 2, eng (wI 8 0 0 0xFFF) (cx []), cx [], wI 8 0 0 0xFFF, by decide +kernel⟩

theorem test_wit_startCtx : ∃ (i : Nat) (s : State),
    (s.gen.hasEngine i = true) :=
  ⟨1, eng 0 (cx []) (fun e => { e with invQ := List.replicate 15 (shuttleStart g0 (liveOf g0) 0) }), by decide +kernel⟩

theorem test_wit_contextAllocate : ∃ (i : Nat) (c : Nat) (s : State) (q : Start) (rest : List Start),
    (s.gen.hasEngine i = true) ∧ (s.m.engines.has i = true) ∧ ((s.m.eng i).fs = .running) ∧ ((s.m.eng i).invQ = q :: rest) ∧ (q.args.length = 3) ∧ ((s.m.eng i).ctxs.lowestFree 0 (ctxMax s.gen s.m i) = some c) :=
  ⟨1, 0, eng 0 (cx []) (fun e => { e with invQ := [⟨2, 77, [1, 2, 3], 8, 0x105, 4, some (hh 0x22 0 1 0x52), [9, 8]⟩] }) (fun m => m.setReg (engKey 1 0x12) 0x40), ⟨2, 77, [1, 2, 3], 8, 0x105, 4, some (hh 0x22 0 1 0x52), [9, 8]⟩, [], by decide +kernel⟩

theorem test_wit_contextEnd : ∃ (i : Nat) (c : Nat) (s : State) (x : Ctx),
    (s.gen.hasEngine i = true) ∧ (c < 8) ∧ (s.m.engines.has i = true) ∧ (s.m.ctx? i c = some x) ∧ (x.st = .ending) ∧ (x.ops = []) ∧ (x.sends = 0) ∧ ((s.m.eng i).fs = .running) ∧ (s.m.sh.job = none) ∧ ((∀ q ∈ (s.m.eng i).sendQ, q.ctx ≠ c)) :=
  ⟨1, 2, eng 0 (cx [] fun x => { x with st := .ending }), cx [] fun x => { x with st := .ending }, by decide +kernel⟩

theorem test_wit_contextTimerFire : ∃ (i : Nat) (c : Nat) (t : Nat) (armed : Nat) (s : State) (x : Ctx),
    (s.gen.hasEngine i = true) ∧ (c < 8) ∧ (s.m.engines.has i = true) ∧ (s.m.ctx? i c = some x) ∧ (x.timer = some (t, armed)) :=
  ⟨1, 2, 6000, 327680000, eng 0 (cx [] fun x => { x with timer := some (6000, 327680000) }), cx [] fun x => { x with timer := some (6000, 327680000) }, by decide +kernel⟩

theorem test_wit_contextTimerFireWait : ∃ (i : Nat) (c : Nat) (t : Nat) (armed : Nat) (s : State) (x : Ctx),
    (s.gen.hasEngine i = true) ∧ (c < 8) ∧ (s.m.engines.has i = true) ∧ (s.m.ctx? i c = some x) ∧ (x.timer = some (t, armed)) :=
  ⟨1, 2, 100, 327680000, eng 0 (cx [] fun x => { x with timer := some (100, 327680000), st := .waitEvent 31 1 }), cx [] fun x => { x with timer := some (100, 327680000), st := .waitEvent 31 1 }, by decide +kernel⟩

theorem test_wit_watchdog : ∃ (i : Nat) (c : Nat) (s : State) (x : Ctx),
    (s.gen.hasEngine i = true) ∧ (c < 8) ∧ (s.m.engines.has i = true) ∧ (s.m.ctx? i c = some x) ∧ (x.wd ≠ 0) ∧ (x.wd < x.issued) ∧ (i < 0x1000) ∧ (engNi s.gen i < 127) ∧ (x.roots = []) :=
  ⟨1, 2, eng 0 (cx [] fun x => { x with wd := 5, issued := 6 }), cx [] fun x => { x with wd := 5, issued := 6 }, by decide +kernel⟩

theorem test_wit_collTimeout : ∃ (i : Nat) (d : Nat) (a : Nat) (s : State),
    (s.gen.hasEngine i = true) ∧ (s.m.engines.has i = true) ∧ (d < 16) ∧ (s.m.deadline (collTimer i d (collOf s.m i d).round) = some a) ∧ ((∀ b, s.m.deadline (collTimer i d ((collOf s.m i d).round + 1)) = some b → a ≤ b)) ∧ ((descOf s.gen s.m i d).isRoot = false) ∧ ((collOf s.m i d).abandonNext = false) ∧ ((collOf s.m i d).cnt1 < (descOf s.gen s.m i d).expect) :=
  ⟨1, 3, 327710000, eng 0 (cx []) (fun e => { e with coll := [(3, ⟨9, 1, 0, 9, none, false⟩)] }) (fun m => due (.coll 1 3 true) 327710000 <| m.setReg (engKey 1 0x23) (2 ^ 127 + 2 * 2 ^ 122 + 3 * 2 ^ 113 + 0x106 * 2 ^ 96 + 1 * 2 ^ 94 + 5 * 2 ^ 90 + 0x400 * 2 ^ 52 + 0x800 * 2 ^ 37 + 7 * 2 ^ 32)), by decide +kernel⟩

theorem test_wit_atomicLockAcquire : ∃ (i : Nat) (n : Nat) (s : State) (a : AtEnt),
    (s.gen.hasEngine i = true) ∧ (n < 64) ∧ ((s.m.eng i).atom.get? n = some a) ∧ (a.phase = 0) ∧ ((lockedBlocks s.gen s.m (engNi s.gen i)).contains a.block = false) ∧ ((∀ e ∈ (s.m.eng i).atom, e.2.block = a.block → a.ord ≤ e.2.ord)) ∧ (agentGone s.m (engNi s.gen i) = false) :=
  ⟨1, 0, eng 0 (cx []) (fun e => { e with atom := [(0, ⟨5, 1, 0, []⟩), (1, ⟨5, 2, 0, []⟩)] }), ⟨5, 1, 0, []⟩, by decide +kernel⟩

theorem test_wit_engDrainTimeout : ∃ (i : Nat) (d : Nat) (s : State),
    (s.gen.hasEngine i = true) ∧ (s.m.engines.has i = true) ∧ ((s.m.eng i).fs = .stopping) ∧ (s.m.deadline (.drain (0x4000 + i)) = some d) ∧ (s.m.sh.job = none) ∧ (i < 0x1000) ∧ (engNi s.gen i < 127) ∧ (((s.m.eng i).ctxs.map (·.1)).Nodup) :=
  ⟨1, 327710000, eng 0 (cx [] fun x => { x with inv := some (hh 0x22 0 1 0x51), ops := [(1, .write)] }) (fun e => { e with fs := .stopping, invQ := [⟨2, 0, [], 0, 0x105, 0, some (hh 0x22 0 2 0x51), []⟩] }) (due (.drain 0x4001) 327710000), by decide +kernel⟩

theorem test_wit_issueTurn : ∃ y ∈ engineOps, ∃ (i : Nat) (c : Nat) (t : Nat) (x : Ctx) (s : State),
    (s.gen.hasEngine i = true) ∧ (c < 8) ∧ (s.m.ctx? i c = some x) ∧ (((s.m.eng i).fs = .running ∨ (s.m.eng i).fs = .stopping)) ∧ (s.m.awake (s.gen.niDom (engNi s.gen i)) = true) ∧ ((s.m.eng i).nextIssue s.m.now = some (t, c)) ∧ ((s.m.advanceTo t).now = t) ∧ ((s.m.eng i).fetch x.pc / 2 ^ 26 = y.2) :=
  ⟨(.yield, 0x3B), by simp [engineOps], 1, 2, 327745536, cx [] fun x => { x with rdyAt := 327745536 }, eng (wI 0x3B 0 0 0) (cx [] fun x => { x with rdyAt := 327745536 }), by decide +kernel⟩

theorem test_wit_notTurn : ∃ y ∈ engineOps, ∃ (i : Nat) (c : Nat) (s : State),
    (s.gen.hasEngine i = true) ∧ (c < 8) ∧ ((∀ t, (s.m.eng i).nextIssue s.m.now ≠ some (t, c))) :=
  ⟨(.yield, 0x3B), by simp [engineOps], 1, 3, eng (wI 0x3B 0 0 0) (cx []), by decide +kernel, by decide, fun t => by
  rw [show ((eng (wI 0x3B 0 0 0) (cx [])).m.eng 1).nextIssue (eng (wI 0x3B 0 0 0) (cx [])).m.now = some (327680000, 2) by decide +kernel]
  simp⟩

/-- An engine whose contexts 1, 2 and 5 are ready in turn. -/
def rotEng : Engine := { Engine.reset with fs := .running, lastCtx := 2, free := 327680000, ctxs := [(1, cx [] fun x => { x with rdyAt := 327680000 }), (2, cx []), (5, cx [] fun x => { x with rdyAt := 327712768 })] }
theorem test_wit_rotation : ∃ (e : Engine) (now t c : Nat), e.nextIssue now = some (t, c) :=
⟨rotEng, 327679000, 327680000, 1, by decide +kernel⟩

theorem test_wit_startCtxAbsent : ∃ (i : Nat) (s : State),
    (s.gen.hasEngine i = false) :=
  ⟨2, live, by decide +kernel⟩

theorem test_wit_collTimeoutNext : ∃ (i : Nat) (d : Nat) (b : Nat) (s : State),
    (s.gen.hasEngine i = true) ∧ (s.m.engines.has i = true) ∧ (d < 16) ∧ (s.m.deadline (collTimer i d ((collOf s.m i d).round + 1)) = some b) ∧ ((∀ a, s.m.deadline (collTimer i d (collOf s.m i d).round) = some a → b < a)) :=
  ⟨1, 3, 327710000, eng 0 (cx []) (fun e => { e with coll := [(3, ⟨9, 1, 1, 9, none, false⟩)] }) (fun m => due (.coll 1 3 false) 327710000 m), by decide +kernel⟩

theorem test_wit_rd : ∃ (l : Nat) (p : Pkt) (s : State) (f : DstFlow),
    (inOrder s l p f) ∧ (between (0x00) (0x00) p.hdr.c = true) ∧ (agentReady s l p) ∧ (pathOf s.gen s.m l p.hdr = none) :=
  ⟨0x22, pk { hh 0x22 0 1 0 with seq := 65535 }, flow 0x22 (hh 0x22 0 1 0) 65535, dflow (hh 0x22 0 1 0).flow 65535, by decide +kernel⟩

theorem test_wit_rdIo : ∃ (l : Nat) (p : Pkt) (s : State) (f : DstFlow),
    (inOrder s l p f) ∧ (between (0x01) (0x01) p.hdr.c = true) ∧ (agentReady s l p) ∧ (pathOf s.gen s.m l p.hdr = none) :=
  ⟨0x22, pk { hh 0x22 0 1 1 with seq := 65535 }, flow 0x22 (hh 0x22 0 1 1) 65535, dflow (hh 0x22 0 1 1).flow 65535, by decide +kernel⟩

theorem test_wit_rdCfg : ∃ (l : Nat) (p : Pkt) (s : State) (f : DstFlow),
    (inOrder s l p f) ∧ (between (0x02) (0x02) p.hdr.c = true) ∧ (agentReady s l p) ∧ (pathOf s.gen s.m l p.hdr = none) :=
  ⟨0x22, pk { hh 0x22 0 1 2 with seq := 65535 }, flow 0x22 (hh 0x22 0 1 2) 65535, dflow (hh 0x22 0 1 2).flow 65535, by decide +kernel⟩

theorem test_wit_wrNp : ∃ (l : Nat) (p : Pkt) (s : State) (f : DstFlow),
    (inOrder s l p f) ∧ (between (0x20) (0x20) p.hdr.c = true) ∧ (agentReady s l p) ∧ (pathOf s.gen s.m l p.hdr = none) :=
  ⟨0x22, pk { hh 0x22 0 1 32 with seq := 65535 }, flow 0x22 (hh 0x22 0 1 32) 65535, dflow (hh 0x22 0 1 32).flow 65535, by decide +kernel⟩

theorem test_wit_wrP : ∃ (l : Nat) (p : Pkt) (s : State) (f : DstFlow),
    (inOrder s l p f) ∧ (between (0x21) (0x21) p.hdr.c = true) ∧ (agentReady s l p) ∧ (pathOf s.gen s.m l p.hdr = none) :=
  ⟨0x22, pk { hh 0x22 3 1 33 with seq := 65535 }, flow 0x22 (hh 0x22 3 1 33) 65535, dflow (hh 0x22 3 1 33).flow 65535, by decide +kernel⟩

theorem test_wit_wrNpPart : ∃ (l : Nat) (p : Pkt) (s : State) (f : DstFlow),
    (inOrder s l p f) ∧ (between (0x22) (0x22) p.hdr.c = true) ∧ (agentReady s l p) ∧ (pathOf s.gen s.m l p.hdr = none) :=
  ⟨0x22, pk { hh 0x22 0 1 34 with seq := 65535 }, flow 0x22 (hh 0x22 0 1 34) 65535, dflow (hh 0x22 0 1 34).flow 65535, by decide +kernel⟩

theorem test_wit_wrPPart : ∃ (l : Nat) (p : Pkt) (s : State) (f : DstFlow),
    (inOrder s l p f) ∧ (between (0x23) (0x23) p.hdr.c = true) ∧ (agentReady s l p) ∧ (pathOf s.gen s.m l p.hdr = none) :=
  ⟨0x22, pk { hh 0x22 3 1 35 with seq := 65535 }, flow 0x22 (hh 0x22 3 1 35) 65535, dflow (hh 0x22 3 1 35).flow 65535, by decide +kernel⟩

theorem test_wit_wrInlineP : ∃ (l : Nat) (p : Pkt) (s : State) (f : DstFlow),
    (inOrder s l p f) ∧ (between (0x24) (0x24) p.hdr.c = true) ∧ (agentReady s l p) ∧ (pathOf s.gen s.m l p.hdr = none) :=
  ⟨0x22, pk { hh 0x22 3 1 36 with seq := 65535 }, flow 0x22 (hh 0x22 3 1 36) 65535, dflow (hh 0x22 3 1 36).flow 65535, by decide +kernel⟩

theorem test_wit_wrCfg : ∃ (l : Nat) (p : Pkt) (s : State) (f : DstFlow),
    (inOrder s l p f) ∧ (between (0x25) (0x25) p.hdr.c = true) ∧ (agentReady s l p) ∧ (pathOf s.gen s.m l p.hdr = none) :=
  ⟨0x22, pk { hh 0x22 0 1 37 with seq := 65535 }, flow 0x22 (hh 0x22 0 1 37) 65535, dflow (hh 0x22 0 1 37).flow 65535, by decide +kernel⟩

theorem test_wit_cohN : ∃ (l : Nat) (p : Pkt) (s : State) (f : DstFlow),
    (inOrder s l p f) ∧ (between (0x60) (0x7F) p.hdr.c = true) ∧ (agentReady s l p) ∧ (pathOf s.gen s.m l p.hdr = none) :=
  ⟨0x22, pk { hh 0x22 1 1 96 with seq := 65535 }, flow 0x22 (hh 0x22 1 1 96) 65535, dflow (hh 0x22 1 1 96).flow 65535, by decide +kernel⟩

theorem test_wit_msg : ∃ (l : Nat) (p : Pkt) (s : State) (f : DstFlow),
    (inOrder s l p f) ∧ (between (0x80) (0x80) p.hdr.c = true) ∧ (agentReady s l p) ∧ (pathOf s.gen s.m l p.hdr = none) :=
  ⟨0x22, pk { hh 0x22 4 1 128 with seq := 65535 }, flow 0x22 (hh 0x22 4 1 128) 65535, dflow (hh 0x22 4 1 128).flow 65535, by decide +kernel⟩

theorem test_wit_msgInline : ∃ (l : Nat) (p : Pkt) (s : State) (f : DstFlow),
    (inOrder s l p f) ∧ (between (0x81) (0x81) p.hdr.c = true) ∧ (agentReady s l p) ∧ (pathOf s.gen s.m l p.hdr = none) :=
  ⟨0x22, pk { hh 0x22 4 1 129 with seq := 65535 }, flow 0x22 (hh 0x22 4 1 129) 65535, dflow (hh 0x22 4 1 129).flow 65535, by decide +kernel⟩

theorem test_wit_msgIntr : ∃ (l : Nat) (p : Pkt) (s : State) (f : DstFlow),
    (inOrder s l p f) ∧ (between (0x82) (0x82) p.hdr.c = true) ∧ (agentReady s l p) ∧ (pathOf s.gen s.m l p.hdr = none) :=
  ⟨0x22, pk { hh 0x22 4 1 130 with seq := 65535 }, flow 0x22 (hh 0x22 4 1 130) 65535, dflow (hh 0x22 4 1 130).flow 65535, by decide +kernel⟩

theorem test_wit_cohNLast : ∃ (l : Nat) (p : Pkt) (s : State) (f : DstFlow),
    (inOrder s l p f) ∧ (between (0x60) (0x7F) p.hdr.c = true) ∧ (agentReady s l p) ∧ (pathOf s.gen s.m l p.hdr = none) :=
  ⟨0x22, pk (hh 0x22 3 1 0x7F), flow 0x22 (hh 0x22 3 1 0x7F), dflow (hh 0x22 3 1 0x7F).flow, by decide +kernel⟩

theorem test_wit_wrPInit : ∃ (l : Nat) (p : Pkt) (s : State) (f : DstFlow),
    (inOrder s l p f) ∧ (between (0x21) (0x21) p.hdr.c = true) ∧ (agentReady s l p) ∧ (pathOf s.gen s.m l p.hdr = none) :=
  ⟨5, pk (hh 5 3 2 0x21), flow 5 (hh 5 3 2 0x21), dflow (hh 5 3 2 0x21).flow, by decide +kernel⟩

theorem test_wit_duplicaterd : ∃ x ∈ requestRows, ∃ (l : Nat) (p : Pkt) (s : State) (f : DstFlow),
    (ordinary s l p f) ∧ (p.isBad = false) ∧ (between x.2.1 x.2.2 p.hdr.c = true) ∧ (32768 ≤ seqDist p.hdr.seq.toNat f.e) :=
  ⟨(.rd, 0, 0), by simp [requestRows], 0x22, pk { hh 0x22 0 1 0 with seq := 5 }, flow 0x22 (hh 0x22 0 1 0) 6, dflow (hh 0x22 0 1 0).flow 6, by decide +kernel⟩

theorem test_wit_duplicaterdFar : ∃ x ∈ requestRows, ∃ (l : Nat) (p : Pkt) (s : State) (f : DstFlow),
    (ordinary s l p f) ∧ (p.isBad = false) ∧ (between x.2.1 x.2.2 p.hdr.c = true) ∧ (32768 ≤ seqDist p.hdr.seq.toNat f.e) :=
  ⟨(.rd, 0, 0), by simp [requestRows], 0x22, pk { hh 0x22 0 1 0 with seq := 5 }, flow 0x22 (hh 0x22 0 1 0) 32773, dflow (hh 0x22 0 1 0).flow 32773, by decide +kernel⟩

theorem test_wit_gaprd : ∃ x ∈ requestRows, ∃ (l : Nat) (p : Pkt) (s : State) (f : DstFlow),
    (ordinary s l p f) ∧ (p.isBad = false) ∧ (between x.2.1 x.2.2 p.hdr.c = true) ∧ (1 ≤ seqDist p.hdr.seq.toNat f.e) ∧ (seqDist p.hdr.seq.toNat f.e < 32768) ∧ (f.nack = none) :=
  ⟨(.rd, 0, 0), by simp [requestRows], 0x22, pk { hh 0x22 0 1 0 with seq := 7 }, flow 0x22 (hh 0x22 0 1 0) 6, dflow (hh 0x22 0 1 0).flow 6, by decide +kernel⟩

theorem test_wit_gaprdFar : ∃ x ∈ requestRows, ∃ (l : Nat) (p : Pkt) (s : State) (f : DstFlow),
    (ordinary s l p f) ∧ (p.isBad = false) ∧ (between x.2.1 x.2.2 p.hdr.c = true) ∧ (1 ≤ seqDist p.hdr.seq.toNat f.e) ∧ (seqDist p.hdr.seq.toNat f.e < 32768) ∧ (f.nack = none) :=
  ⟨(.rd, 0, 0), by simp [requestRows], 0x22, pk { hh 0x22 0 1 0 with seq := 32773 }, flow 0x22 (hh 0x22 0 1 0) 6, dflow (hh 0x22 0 1 0).flow 6, by decide +kernel⟩

theorem test_wit_badrd : ∃ x ∈ requestRows, ∃ (l : Nat) (p : Pkt) (s : State) (f : DstFlow),
    (ordinary s l p f) ∧ (p.badHdr = true) ∧ (between x.2.1 x.2.2 p.hdr.c = true) ∧ (p.hdr.seq.toNat = f.e) ∧ (f.nack = none) :=
  ⟨(.rd, 0, 0), by simp [requestRows], 0x22, { pk { hh 0x22 0 1 0 with seq := 6 } with badHdr := true }, flow 0x22 (hh 0x22 0 1 0) 6, dflow (hh 0x22 0 1 0).flow 6, by decide +kernel⟩

theorem test_wit_duplicateengEvent : ∃ x ∈ requestRows, ∃ (l : Nat) (p : Pkt) (s : State) (f : DstFlow),
    (ordinary s l p f) ∧ (p.isBad = false) ∧ (between x.2.1 x.2.2 p.hdr.c = true) ∧ (32768 ≤ seqDist p.hdr.seq.toNat f.e) :=
  ⟨(.engEvent, 83, 83), by simp [requestRows], 0x22, pk { hh 0x22 4 1 83 with seq := 5 }, flow 0x22 (hh 0x22 4 1 83) 6, dflow (hh 0x22 4 1 83).flow 6, by decide +kernel⟩

theorem test_wit_gapengEvent : ∃ x ∈ requestRows, ∃ (l : Nat) (p : Pkt) (s : State) (f : DstFlow),
    (ordinary s l p f) ∧ (p.isBad = false) ∧ (between x.2.1 x.2.2 p.hdr.c = true) ∧ (1 ≤ seqDist p.hdr.seq.toNat f.e) ∧ (seqDist p.hdr.seq.toNat f.e < 32768) ∧ (f.nack = none) :=
  ⟨(.engEvent, 83, 83), by simp [requestRows], 0x22, pk { hh 0x22 4 1 83 with seq := 7 }, flow 0x22 (hh 0x22 4 1 83) 6, dflow (hh 0x22 4 1 83).flow 6, by decide +kernel⟩

theorem test_wit_badengEvent : ∃ x ∈ requestRows, ∃ (l : Nat) (p : Pkt) (s : State) (f : DstFlow),
    (ordinary s l p f) ∧ (p.badHdr = true) ∧ (between x.2.1 x.2.2 p.hdr.c = true) ∧ (p.hdr.seq.toNat = f.e) ∧ (f.nack = none) :=
  ⟨(.engEvent, 83, 83), by simp [requestRows], 0x22, { pk { hh 0x22 4 1 83 with seq := 6 } with badHdr := true }, flow 0x22 (hh 0x22 4 1 83) 6, dflow (hh 0x22 4 1 83).flow 6, by decide +kernel⟩

theorem test_wit_duplicatecohN : ∃ x ∈ requestRows, ∃ (l : Nat) (p : Pkt) (s : State) (f : DstFlow),
    (ordinary s l p f) ∧ (p.isBad = false) ∧ (between x.2.1 x.2.2 p.hdr.c = true) ∧ (32768 ≤ seqDist p.hdr.seq.toNat f.e) :=
  ⟨(.cohN, 96, 127), by simp [requestRows], 0x22, pk { hh 0x22 1 1 96 with seq := 5 }, flow 0x22 (hh 0x22 1 1 96) 6, dflow (hh 0x22 1 1 96).flow 6, by decide +kernel⟩

theorem test_wit_gapcohN : ∃ x ∈ requestRows, ∃ (l : Nat) (p : Pkt) (s : State) (f : DstFlow),
    (ordinary s l p f) ∧ (p.isBad = false) ∧ (between x.2.1 x.2.2 p.hdr.c = true) ∧ (1 ≤ seqDist p.hdr.seq.toNat f.e) ∧ (seqDist p.hdr.seq.toNat f.e < 32768) ∧ (f.nack = none) :=
  ⟨(.cohN, 96, 127), by simp [requestRows], 0x22, pk { hh 0x22 1 1 96 with seq := 7 }, flow 0x22 (hh 0x22 1 1 96) 6, dflow (hh 0x22 1 1 96).flow 6, by decide +kernel⟩

theorem test_wit_badcohN : ∃ x ∈ requestRows, ∃ (l : Nat) (p : Pkt) (s : State) (f : DstFlow),
    (ordinary s l p f) ∧ (p.badHdr = true) ∧ (between x.2.1 x.2.2 p.hdr.c = true) ∧ (p.hdr.seq.toNat = f.e) ∧ (f.nack = none) :=
  ⟨(.cohN, 96, 127), by simp [requestRows], 0x22, { pk { hh 0x22 1 1 96 with seq := 6 } with badHdr := true }, flow 0x22 (hh 0x22 1 1 96) 6, dflow (hh 0x22 1 1 96).flow 6, by decide +kernel⟩

theorem test_wit_atAdd : ∃ (l : Nat) (i : Nat) (n : Nat) (p : Pkt) (s : State) (f : DstFlow),
    (inOrder s l p f) ∧ (p.hdr.c = (0x40)) ∧ (agentReady s l p) ∧ (pathOf s.gen s.m l p.hdr = some i) ∧ ((s.m.ni l).ep.eject.getD p.hdr.v [] = []) ∧ (atomRefused p = false) ∧ (pathFree s i n p) :=
  ⟨0x22, 1, 1, pk { hh 0x22 0 1 64 with addr := 0x1040, csf := ((Hdr.zero.setCsf 246 244 3).setCsf 243 241 0).csf }, flow 0x22 (hh 0x22 0 1 64) 0 (·.updE 1 fun e => { e with atom := [(0, ⟨0x41, 3, 2, []⟩)] }), dflow (hh 0x22 0 1 64).flow, by decide +kernel⟩

theorem test_wit_atSwap : ∃ (l : Nat) (i : Nat) (n : Nat) (p : Pkt) (s : State) (f : DstFlow),
    (inOrder s l p f) ∧ (p.hdr.c = (0x41)) ∧ (agentReady s l p) ∧ (pathOf s.gen s.m l p.hdr = some i) ∧ ((s.m.ni l).ep.eject.getD p.hdr.v [] = []) ∧ (atomRefused p = false) ∧ (pathFree s i n p) :=
  ⟨0x22, 1, 1, pk { hh 0x22 0 1 65 with addr := 0x1040, csf := ((Hdr.zero.setCsf 246 244 3).setCsf 243 241 0).csf }, flow 0x22 (hh 0x22 0 1 65) 0 (·.updE 1 fun e => { e with atom := [(0, ⟨0x41, 3, 2, []⟩)] }), dflow (hh 0x22 0 1 65).flow, by decide +kernel⟩

theorem test_wit_atCas : ∃ (l : Nat) (i : Nat) (n : Nat) (p : Pkt) (s : State) (f : DstFlow),
    (inOrder s l p f) ∧ (p.hdr.c = (0x42)) ∧ (agentReady s l p) ∧ (pathOf s.gen s.m l p.hdr = some i) ∧ ((s.m.ni l).ep.eject.getD p.hdr.v [] = []) ∧ (atomRefused p = false) ∧ (pathFree s i n p) :=
  ⟨0x22, 1, 1, pk { hh 0x22 0 1 66 with addr := 0x1040, csf := ((Hdr.zero.setCsf 246 244 3).setCsf 243 241 0).csf }, flow 0x22 (hh 0x22 0 1 66) 0 (·.updE 1 fun e => { e with atom := [(0, ⟨0x41, 3, 2, []⟩)] }), dflow (hh 0x22 0 1 66).flow, by decide +kernel⟩

theorem test_wit_atSmin : ∃ (l : Nat) (i : Nat) (n : Nat) (p : Pkt) (s : State) (f : DstFlow),
    (inOrder s l p f) ∧ (p.hdr.c = (0x43)) ∧ (agentReady s l p) ∧ (pathOf s.gen s.m l p.hdr = some i) ∧ ((s.m.ni l).ep.eject.getD p.hdr.v [] = []) ∧ (atomRefused p = false) ∧ (pathFree s i n p) :=
  ⟨0x22, 1, 1, pk { hh 0x22 0 1 67 with addr := 0x1040, csf := ((Hdr.zero.setCsf 246 244 3).setCsf 243 241 0).csf }, flow 0x22 (hh 0x22 0 1 67) 0 (·.updE 1 fun e => { e with atom := [(0, ⟨0x41, 3, 2, []⟩)] }), dflow (hh 0x22 0 1 67).flow, by decide +kernel⟩

theorem test_wit_atSmax : ∃ (l : Nat) (i : Nat) (n : Nat) (p : Pkt) (s : State) (f : DstFlow),
    (inOrder s l p f) ∧ (p.hdr.c = (0x44)) ∧ (agentReady s l p) ∧ (pathOf s.gen s.m l p.hdr = some i) ∧ ((s.m.ni l).ep.eject.getD p.hdr.v [] = []) ∧ (atomRefused p = false) ∧ (pathFree s i n p) :=
  ⟨0x22, 1, 1, pk { hh 0x22 0 1 68 with addr := 0x1040, csf := ((Hdr.zero.setCsf 246 244 3).setCsf 243 241 0).csf }, flow 0x22 (hh 0x22 0 1 68) 0 (·.updE 1 fun e => { e with atom := [(0, ⟨0x41, 3, 2, []⟩)] }), dflow (hh 0x22 0 1 68).flow, by decide +kernel⟩

theorem test_wit_atUmin : ∃ (l : Nat) (i : Nat) (n : Nat) (p : Pkt) (s : State) (f : DstFlow),
    (inOrder s l p f) ∧ (p.hdr.c = (0x45)) ∧ (agentReady s l p) ∧ (pathOf s.gen s.m l p.hdr = some i) ∧ ((s.m.ni l).ep.eject.getD p.hdr.v [] = []) ∧ (atomRefused p = false) ∧ (pathFree s i n p) :=
  ⟨0x22, 1, 1, pk { hh 0x22 0 1 69 with addr := 0x1040, csf := ((Hdr.zero.setCsf 246 244 3).setCsf 243 241 0).csf }, flow 0x22 (hh 0x22 0 1 69) 0 (·.updE 1 fun e => { e with atom := [(0, ⟨0x41, 3, 2, []⟩)] }), dflow (hh 0x22 0 1 69).flow, by decide +kernel⟩

theorem test_wit_atUmax : ∃ (l : Nat) (i : Nat) (n : Nat) (p : Pkt) (s : State) (f : DstFlow),
    (inOrder s l p f) ∧ (p.hdr.c = (0x46)) ∧ (agentReady s l p) ∧ (pathOf s.gen s.m l p.hdr = some i) ∧ ((s.m.ni l).ep.eject.getD p.hdr.v [] = []) ∧ (atomRefused p = false) ∧ (pathFree s i n p) :=
  ⟨0x22, 1, 1, pk { hh 0x22 0 1 70 with addr := 0x1040, csf := ((Hdr.zero.setCsf 246 244 3).setCsf 243 241 0).csf }, flow 0x22 (hh 0x22 0 1 70) 0 (·.updE 1 fun e => { e with atom := [(0, ⟨0x41, 3, 2, []⟩)] }), dflow (hh 0x22 0 1 70).flow, by decide +kernel⟩

theorem test_wit_atAnd : ∃ (l : Nat) (i : Nat) (n : Nat) (p : Pkt) (s : State) (f : DstFlow),
    (inOrder s l p f) ∧ (p.hdr.c = (0x47)) ∧ (agentReady s l p) ∧ (pathOf s.gen s.m l p.hdr = some i) ∧ ((s.m.ni l).ep.eject.getD p.hdr.v [] = []) ∧ (atomRefused p = false) ∧ (pathFree s i n p) :=
  ⟨0x22, 1, 1, pk { hh 0x22 0 1 71 with addr := 0x1040, csf := ((Hdr.zero.setCsf 246 244 3).setCsf 243 241 0).csf }, flow 0x22 (hh 0x22 0 1 71) 0 (·.updE 1 fun e => { e with atom := [(0, ⟨0x41, 3, 2, []⟩)] }), dflow (hh 0x22 0 1 71).flow, by decide +kernel⟩

theorem test_wit_atOr : ∃ (l : Nat) (i : Nat) (n : Nat) (p : Pkt) (s : State) (f : DstFlow),
    (inOrder s l p f) ∧ (p.hdr.c = (0x48)) ∧ (agentReady s l p) ∧ (pathOf s.gen s.m l p.hdr = some i) ∧ ((s.m.ni l).ep.eject.getD p.hdr.v [] = []) ∧ (atomRefused p = false) ∧ (pathFree s i n p) :=
  ⟨0x22, 1, 1, pk { hh 0x22 0 1 72 with addr := 0x1040, csf := ((Hdr.zero.setCsf 246 244 3).setCsf 243 241 0).csf }, flow 0x22 (hh 0x22 0 1 72) 0 (·.updE 1 fun e => { e with atom := [(0, ⟨0x41, 3, 2, []⟩)] }), dflow (hh 0x22 0 1 72).flow, by decide +kernel⟩

theorem test_wit_atXor : ∃ (l : Nat) (i : Nat) (n : Nat) (p : Pkt) (s : State) (f : DstFlow),
    (inOrder s l p f) ∧ (p.hdr.c = (0x49)) ∧ (agentReady s l p) ∧ (pathOf s.gen s.m l p.hdr = some i) ∧ ((s.m.ni l).ep.eject.getD p.hdr.v [] = []) ∧ (atomRefused p = false) ∧ (pathFree s i n p) :=
  ⟨0x22, 1, 1, pk { hh 0x22 0 1 73 with addr := 0x1040, csf := ((Hdr.zero.setCsf 246 244 3).setCsf 243 241 0).csf }, flow 0x22 (hh 0x22 0 1 73) 0 (·.updE 1 fun e => { e with atom := [(0, ⟨0x41, 3, 2, []⟩)] }), dflow (hh 0x22 0 1 73).flow, by decide +kernel⟩

theorem test_wit_atFadd : ∃ (l : Nat) (i : Nat) (n : Nat) (p : Pkt) (s : State) (f : DstFlow),
    (inOrder s l p f) ∧ (p.hdr.c = (0x4A)) ∧ (agentReady s l p) ∧ (pathOf s.gen s.m l p.hdr = some i) ∧ ((s.m.ni l).ep.eject.getD p.hdr.v [] = []) ∧ (atomRefused p = false) ∧ (pathFree s i n p) :=
  ⟨0x22, 1, 1, pk { hh 0x22 0 1 74 with addr := 0x1040, csf := ((Hdr.zero.setCsf 246 244 2).setCsf 243 241 2).csf }, flow 0x22 (hh 0x22 0 1 74) 0 (·.updE 1 fun e => { e with atom := [(0, ⟨0x41, 3, 2, []⟩)] }), dflow (hh 0x22 0 1 74).flow, by decide +kernel⟩

theorem test_wit_atomicValue : ∃ (cmd : Nat) (n : Nat),
    (0x40 ≤ cmd) ∧ (cmd ≤ 0x49) ∧ (1 ≤ n) :=
  ⟨0x43, 8, by decide +kernel⟩

theorem test_wit_atomicBlock : ∃ (ops : List AtOp) (block : Nat),
    (block < 2 ^ 512) ∧ ((∀ o ∈ ops, o.hdr.a % 64 + o.size ≤ 64 ∧ 1 ≤ o.size)) :=
  ⟨[⟨{ hh 0x22 0 1 0x40 with addr := 0x1048 }, none, 0x40, 8, 5, 0, 0⟩, ⟨{ hh 0x22 0 1 0x40 with addr := 0x107C }, none, 0x41, 4, 0xFFFFFFFF, 0, 0⟩], 2 ^ 511 + 12345, ⟨by decide +kernel, by decide +kernel⟩⟩

theorem test_wit_rdScratch : ∃ (l : Nat) (i : Nat) (p : Pkt) (s : State) (f : DstFlow),
    (inOrder s l p f) ∧ (p.hdr.c = 0x03) ∧ (forEngine s l i p) :=
  ⟨0x22, 1, pk { hh 0x22 0 1 3 with addr := sAddr 0x108, len := 16 }, flow 0x22 (hh 0x22 0 1 3) 0 (fun m => m.updE 1 fun e => { e with scratch := Mem.write [] 0x108 8 0xF1F2F3F4F5F6F7F8 }), dflow (hh 0x22 0 1 3).flow, by decide +kernel⟩

theorem test_wit_rdScratchBad : ∃ (l : Nat) (i : Nat) (p : Pkt) (s : State) (f : DstFlow),
    (inOrder s l p f) ∧ (p.hdr.c = 0x03) ∧ (forEngine s l i p) :=
  ⟨0x22, 1, pk { hh 0x22 0 1 3 with addr := sAddr 0x108, len := 16 }, flow 0x22 (hh 0x22 0 1 3) 0 (fun m => m.updE 1 fun e => { e with poisoned := [34] }), dflow (hh 0x22 0 1 3).flow, by decide +kernel⟩

theorem test_wit_wrScratch : ∃ (l : Nat) (i : Nat) (p : Pkt) (s : State) (f : DstFlow),
    (inOrder s l p f) ∧ (p.hdr.c = 0x26) ∧ (forEngine s l i p) ∧ (Mem.wf (s.m.eng i).scratch = true) ∧ (p.hdr.a % 32768 + p.bytes.length ≤ 0x8000) :=
  ⟨0x22, 1, pk { hh 0x22 0 1 38 with addr := sAddr 0x108, len := 9 } [0x112233445566778899], flow 0x22 (hh 0x22 0 1 38) 0 (fun m => m.updE 1 fun e => { e with scratch := Mem.write [] 0x108 8 0xF1F2F3F4F5F6F7F8 }), dflow (hh 0x22 0 1 38).flow, by decide +kernel⟩

theorem test_wit_engInvoke : ∃ (l : Nat) (i : Nat) (p : Pkt) (s : State) (f : DstFlow),
    (inOrder s l p f) ∧ (p.hdr.c = 0x52) ∧ (forEngine s l i p) ∧ (invokeEn s.gen s.m i = true) ∧ ((s.m.eng i).invQ.length < 16) :=
  ⟨0x22, 1, pk { hh 0x22 0 1 82 with addr := sAddr 0x108, len := 0, csf := (Hdr.zero.setCsf 245 242 5).csf }, flow 0x22 (hh 0x22 0 1 82) 0 (id), dflow (hh 0x22 0 1 82).flow, by decide +kernel⟩

theorem test_wit_engInvokeData : ∃ (l : Nat) (i : Nat) (p : Pkt) (s : State) (f : DstFlow),
    (inOrder s l p f) ∧ (p.hdr.c = 0x52) ∧ (forEngine s l i p) ∧ (invokeEn s.gen s.m i = true) ∧ ((s.m.eng i).invQ.length < 16) :=
  ⟨0x22, 1, pk { hh 0x22 0 1 82 with addr := sAddr 0x108, len := 3, csf := (Hdr.zero.setCsf 239 176 5).csf } [0x332211], flow 0x22 (hh 0x22 0 1 82) 0 (id), dflow (hh 0x22 0 1 82).flow, by decide +kernel⟩

theorem test_wit_engInvokeOff : ∃ (l : Nat) (i : Nat) (p : Pkt) (s : State) (f : DstFlow),
    (inOrder s l p f) ∧ (p.hdr.c = 0x52) ∧ (forEngine s l i p) ∧ (invokeEn s.gen s.m i = false) :=
  ⟨0x22, 1, pk { hh 0x22 0 1 82 with addr := sAddr 0x108, len := 0 }, flow 0x22 (hh 0x22 0 1 82) 0 (fun m => (m.setReg (engKey 1 2) 0x2E)), dflow (hh 0x22 0 1 82).flow, by decide +kernel⟩

theorem test_wit_engEvent : ∃ (l : Nat) (i : Nat) (p : Pkt) (s : State) (f : DstFlow),
    (inOrder s l p f) ∧ (p.hdr.c = 0x53) ∧ (forEngine s l i p) ∧ (p.hdr.csfFld 246 246 = 0) ∧ (p.hdr.csfFld 241 237 ≠ 31) ∧ ((∀ k y, s.m.ctx? i k = some y → ∀ e n, y.st ≠ .waitEvent e n)) :=
  ⟨0x22, 1, pk { hh 0x22 4 1 83 with addr := sAddr 0x108, csf := ((Hdr.zero.setCsf 241 237 30).setCsf 236 221 65535).csf }, flow 0x22 (hh 0x22 4 1 83) 0 (fun m => m.updE 1 fun e => { e with ev := [(30, 9)] }), dflow (hh 0x22 4 1 83).flow, ⟨by decide +kernel, by decide +kernel, by decide +kernel, by decide +kernel, by decide +kernel, noWaiter (by decide +kernel)⟩⟩

theorem test_wit_engEventStart : ∃ (l : Nat) (i : Nat) (p : Pkt) (s : State) (f : DstFlow),
    (inOrder s l p f) ∧ (p.hdr.c = 0x53) ∧ (forEngine s l i p) ∧ (p.hdr.csfFld 246 246 = 1) ∧ (eventStartEn s.gen s.m i = true) ∧ ((s.m.eng i).invQ.length < 16) :=
  ⟨0x22, 1, pk { hh 0x22 4 1 83 with addr := sAddr 0x108, csf := ((Hdr.zero.setCsf 246 246 1).setCsf 236 221 77).csf }, flow 0x22 (hh 0x22 4 1 83) 0 (id), dflow (hh 0x22 4 1 83).flow, by decide +kernel⟩

theorem test_wit_collContrib : ∃ (l : Nat) (i : Nat) (p : Pkt) (s : State) (f : DstFlow),
    (inOrder s l p f) ∧ (p.hdr.c = 0x50) ∧ (forEngine s l i p) ∧ (p.hdr.csfFld 241 241 = 0) ∧ ((descOf s.gen s.m i (p.hdr.csfFld 245 242)).valid = true) ∧ (p.hdr.csfFld 239 224 = (collOf s.m i (p.hdr.csfFld 245 242)).round) ∧ (p.bytes.length = 64 * (descOf s.gen s.m i (p.hdr.csfFld 245 242)).flits) ∧ ((collOf s.m i (p.hdr.csfFld 245 242)).cnt0 + 1 < (descOf s.gen s.m i (p.hdr.csfFld 245 242)).expect) :=
  ⟨0x22, 1, pk { hh 0x22 4 1 80 with addr := sAddr 0x108, len := 64, csf := ((Hdr.zero.setCsf 245 242 3).setCsf 239 224 9).csf } [0x55], flow 0x22 (hh 0x22 4 1 80) 0 (fun m => (m.setReg (engKey 1 0x23) (2 ^ 127 + 2 * 2 ^ 122 + 3 * 2 ^ 113 + 0x106 * 2 ^ 96 + 1 * 2 ^ 94 + 5 * 2 ^ 90 + 0x400 * 2 ^ 52 + 0x800 * 2 ^ 37 + 7 * 2 ^ 32)).updE 1 fun e => { e with coll := [(3, ⟨9, 1, 0, 9, none, false⟩)] }), dflow (hh 0x22 4 1 80).flow, by decide +kernel⟩

theorem test_wit_collResult : ∃ (l : Nat) (i : Nat) (p : Pkt) (s : State) (f : DstFlow),
    (inOrder s l p f) ∧ (p.hdr.c = 0x51) ∧ (forEngine s l i p) ∧ (p.hdr.csfFld 241 241 = 0) ∧ ((descOf s.gen s.m i (p.hdr.csfFld 245 242)).valid = true) ∧ (p.bytes.length = 64 * (descOf s.gen s.m i (p.hdr.csfFld 245 242)).flits) ∧ (Mem.wf (s.m.eng i).scratch = true) ∧ ((descOf s.gen s.m i (p.hdr.csfFld 245 242)).res + p.bytes.length ≤ 0x8000) ∧ ((∀ k y, s.m.ctx? i k = some y → ∀ e n, y.st ≠ .waitEvent e n)) :=
  ⟨0x22, 1, pk { hh 0x22 4 1 81 with addr := sAddr 0x108, len := 64, csf := ((Hdr.zero.setCsf 245 242 3).setCsf 239 224 9).csf } [0x1155], flow 0x22 (hh 0x22 4 1 81) 0 (fun m => (m.setReg (engKey 1 0x23) (2 ^ 127 + 2 * 2 ^ 122 + 3 * 2 ^ 113 + 0x106 * 2 ^ 96 + 1 * 2 ^ 94 + 5 * 2 ^ 90 + 0x400 * 2 ^ 52 + 0x800 * 2 ^ 37 + 7 * 2 ^ 32)).updE 1 fun e => { e with ev := [(7, 65535)] }), dflow (hh 0x22 4 1 81).flow, ⟨by decide +kernel, by decide +kernel, by decide +kernel, by decide +kernel, by decide +kernel, by decide +kernel,
  by decide +kernel, by decide +kernel, noWaiter (by decide +kernel)⟩⟩

theorem test_wit_rsp : ∃ (l : Nat) (p : Pkt) (s : State) (f : DstFlow) (e : TagEnt),
    (inOrder s l p f) ∧ (p.hdr.c = (0x90)) ∧ ((s.m.ni l).tab.tags.get? p.hdr.tag.toNat = some e) ∧ (e.org = .agent) ∧ (e.part = 0) ∧ (e.fired = false) ∧ (e.orphan = false) ∧ (tagHeld s.m l p.hdr.tag.toNat = false) ∧ ((s.m.ni l).ep.st = .opened) :=
  ⟨5, pk { hh 5 2 1 144 with tag := 0x77 }, flow 5 (hh 5 2 1 144) 0 (·.updTab 5 fun t => { t with tags := [(0x77, ⟨.agent, 0x321, 0, 0, { hh 5 0 1 0 with src := 0x85, dest := 0x105, seq := 4 }, { hh 5 0 1 0 with src := 0x85, dest := 0x105 }, 100, 327680000000, false, false, false⟩)], retx := [⟨pk { hh 5 0 1 0 with src := 0x85, dest := 0x105, seq := 3 }, .agent, true, 0, 0⟩, ⟨pk { hh 5 0 1 0 with src := 0x85, dest := 0x105, seq := 5 }, .agent, true, 0, 0⟩] }), dflow (hh 5 2 1 144).flow, ⟨.agent, 0x321, 0, 0, { hh 5 0 1 0 with src := 0x85, dest := 0x105, seq := 4 }, { hh 5 0 1 0 with src := 0x85, dest := 0x105 }, 100, 327680000000, false, false, false⟩, by decide +kernel⟩

theorem test_wit_rspData : ∃ (l : Nat) (p : Pkt) (s : State) (f : DstFlow) (e : TagEnt),
    (inOrder s l p f) ∧ (p.hdr.c = (0x91)) ∧ ((s.m.ni l).tab.tags.get? p.hdr.tag.toNat = some e) ∧ (e.org = .agent) ∧ (e.part = 0) ∧ (e.fired = false) ∧ (e.orphan = false) ∧ (tagHeld s.m l p.hdr.tag.toNat = false) ∧ ((s.m.ni l).ep.st = .opened) :=
  ⟨5, pk { hh 5 2 1 145 with tag := 0x77 }, flow 5 (hh 5 2 1 145) 0 (·.updTab 5 fun t => { t with tags := [(0x77, ⟨.agent, 0x321, 0, 0, { hh 5 0 1 0 with src := 0x85, dest := 0x105, seq := 4 }, { hh 5 0 1 0 with src := 0x85, dest := 0x105 }, 100, 327680000000, false, false, false⟩)], retx := [⟨pk { hh 5 0 1 0 with src := 0x85, dest := 0x105, seq := 3 }, .agent, true, 0, 0⟩, ⟨pk { hh 5 0 1 0 with src := 0x85, dest := 0x105, seq := 5 }, .agent, true, 0, 0⟩] }), dflow (hh 5 2 1 145).flow, ⟨.agent, 0x321, 0, 0, { hh 5 0 1 0 with src := 0x85, dest := 0x105, seq := 4 }, { hh 5 0 1 0 with src := 0x85, dest := 0x105 }, 100, 327680000000, false, false, false⟩, by decide +kernel⟩

theorem test_wit_rspDataInline : ∃ (l : Nat) (p : Pkt) (s : State) (f : DstFlow) (e : TagEnt),
    (inOrder s l p f) ∧ (p.hdr.c = (0x92)) ∧ ((s.m.ni l).tab.tags.get? p.hdr.tag.toNat = some e) ∧ (e.org = .agent) ∧ (e.part = 0) ∧ (e.fired = false) ∧ (e.orphan = false) ∧ (tagHeld s.m l p.hdr.tag.toNat = false) ∧ ((s.m.ni l).ep.st = .opened) :=
  ⟨5, pk { hh 5 2 1 146 with tag := 0x77 }, flow 5 (hh 5 2 1 146) 0 (·.updTab 5 fun t => { t with tags := [(0x77, ⟨.agent, 0x321, 0, 0, { hh 5 0 1 0 with src := 0x85, dest := 0x105, seq := 4 }, { hh 5 0 1 0 with src := 0x85, dest := 0x105 }, 100, 327680000000, false, false, false⟩)], retx := [⟨pk { hh 5 0 1 0 with src := 0x85, dest := 0x105, seq := 3 }, .agent, true, 0, 0⟩, ⟨pk { hh 5 0 1 0 with src := 0x85, dest := 0x105, seq := 5 }, .agent, true, 0, 0⟩] }), dflow (hh 5 2 1 146).flow, ⟨.agent, 0x321, 0, 0, { hh 5 0 1 0 with src := 0x85, dest := 0x105, seq := 4 }, { hh 5 0 1 0 with src := 0x85, dest := 0x105 }, 100, 327680000000, false, false, false⟩, by decide +kernel⟩

theorem test_wit_rspMgmt : ∃ (l : Nat) (p : Pkt) (s : State) (f : DstFlow) (e : TagEnt),
    (inOrder s l p f) ∧ (p.hdr.c = (0x93)) ∧ ((s.m.ni l).tab.tags.get? p.hdr.tag.toNat = some e) ∧ (e.org = .agent) ∧ (e.part = 0) ∧ (e.fired = false) ∧ (e.orphan = false) ∧ (tagHeld s.m l p.hdr.tag.toNat = false) ∧ ((s.m.ni l).ep.st = .opened) :=
  ⟨5, pk { hh 5 2 1 147 with tag := 0x77 }, flow 5 (hh 5 2 1 147) 0 (·.updTab 5 fun t => { t with tags := [(0x77, ⟨.agent, 0x321, 0, 0, { hh 5 0 1 0 with src := 0x85, dest := 0x105, seq := 4 }, { hh 5 0 1 0 with src := 0x85, dest := 0x105 }, 100, 327680000000, false, false, false⟩)], retx := [⟨pk { hh 5 0 1 0 with src := 0x85, dest := 0x105, seq := 3 }, .agent, true, 0, 0⟩, ⟨pk { hh 5 0 1 0 with src := 0x85, dest := 0x105, seq := 5 }, .agent, true, 0, 0⟩] }), dflow (hh 5 2 1 147).flow, ⟨.agent, 0x321, 0, 0, { hh 5 0 1 0 with src := 0x85, dest := 0x105, seq := 4 }, { hh 5 0 1 0 with src := 0x85, dest := 0x105 }, 100, 327680000000, false, false, false⟩, by decide +kernel⟩

theorem test_wit_postedAck : ∃ (l : Nat) (p : Pkt) (s : State),
    (internalOk s l p 0xF0) :=
  ⟨5, pk { hh 5 2 1 0xF0 with csf := ((((Hdr.zero.setCsf 239 224 4).setCsf 215 213 3).setCsf 212 211 1).setCsf 210 208 0).csf }, live (fun m => (m.updTab 5 fun t => { t with src := [⟨⟨0x85, 0x105, false, 3, 1⟩, 6, false, 0⟩], retx := [⟨pk { hh 5 3 1 0x21 with src := 0x85, dest := 0x105, seq := 3 }, .agent, true, 0, 0⟩, ⟨pk { hh 5 3 1 0x21 with src := 0x85, dest := 0x105, seq := 4 }, .agent, true, 1, 0⟩, ⟨pk { hh 5 3 1 0x21 with src := 0x85, dest := 0x105, seq := 5 }, .agent, true, 0, 0⟩] }).updTx 5 fun t => { t with retxQ := [pk { hh 5 3 1 0x21 with src := 0x85, dest := 0x105, seq := 4 }, pk { hh 5 3 1 0x21 with src := 0x85, dest := 0x105, seq := 5 }] }), by decide +kernel⟩

theorem test_wit_nackRetry : ∃ (l : Nat) (p : Pkt) (s : State),
    (internalOk s l p 0xF1) ∧ (let k := namedFlow s.gen s.m l p.hdr; let e := p.hdr.csfFld 239 224; (seqBefore e (nextSeq s.m l k) = true) ∧ (seqBefore e (((heldOf (s.m.ni l) k).head?.map (·.pkt.hdr.seq.toNat)).getD (nextSeq s.m l k)) = false) ∧ ((∀ x ∈ heldOf (s.m.ni l) k, x.pkt.hdr.seq.toNat = e → x.tries < niSet s.gen s.m l 0x15)) ∧ (l < 127)) :=
  ⟨5, pk { hh 5 2 1 0xF1 with csf := ((((Hdr.zero.setCsf 239 224 4).setCsf 215 213 3).setCsf 212 211 1).setCsf 210 208 2).csf }, live (fun m => (m.updTab 5 fun t => { t with src := [⟨⟨0x85, 0x105, false, 3, 1⟩, 6, false, 0⟩], retx := [⟨pk { hh 5 3 1 0x21 with src := 0x85, dest := 0x105, seq := 3 }, .agent, true, 0, 0⟩, ⟨pk { hh 5 3 1 0x21 with src := 0x85, dest := 0x105, seq := 4 }, .agent, true, 1, 0⟩, ⟨pk { hh 5 3 1 0x21 with src := 0x85, dest := 0x105, seq := 5 }, .agent, true, 0, 0⟩] }).updTx 5 fun t => { t with retxQ := [pk { hh 5 3 1 0x21 with src := 0x85, dest := 0x105, seq := 4 }, pk { hh 5 3 1 0x21 with src := 0x85, dest := 0x105, seq := 5 }] }), by decide +kernel⟩

theorem test_wit_nackFail : ∃ (l : Nat) (p : Pkt) (s : State),
    (internalOk s l p 0xF1) ∧ (let k := namedFlow s.gen s.m l p.hdr; let e := p.hdr.csfFld 239 224; (seqBefore e (nextSeq s.m l k) = true) ∧ (p.hdr.csfFld 210 208 ≠ 3) ∧ (((heldOf (s.m.ni l) k).head?.map (·.pkt.hdr.seq.toNat)) = some e) ∧ ((∀ x ∈ heldOf (s.m.ni l) k, x.posted = true ∧ niSet s.gen s.m l 0x15 ≤ x.tries)) ∧ (l < 127)) :=
  ⟨5, pk { hh 5 2 1 0xF1 with csf := ((((Hdr.zero.setCsf 239 224 4).setCsf 215 213 3).setCsf 212 211 1).setCsf 210 208 2).csf }, live (·.updTab 5 fun t => { t with src := [⟨⟨0x85, 0x105, false, 3, 1⟩, 6, false, 0⟩], retx := [⟨pk { hh 5 3 1 0x21 with src := 0x85, dest := 0x105, seq := 4 }, .agent, true, 3, 0⟩, ⟨pk { hh 5 3 1 0x21 with src := 0x85, dest := 0x105, seq := 5 }, .agent, true, 3, 0⟩] }), by decide +kernel⟩

theorem test_wit_partialDelivery : ∃ (l : Nat) (p : Pkt) (s : State),
    (internalOk s l p 0xF4) :=
  ⟨5, pk (hh 5 2 1 0xF4), live, by decide +kernel⟩

theorem test_wit_twinHoldExpiry : ∃ (l : Nat) (j : Nat) (w : Nat) (t : Nat) (k : FlowKey) (q : Pkt) (s : State),
    (s.gen.hasNi l = true) ∧ (s.m.nis.has l = true) ∧ (l < 127) ∧ (c0DstOf s.m l k.src k.vn.toNat = some (j, w)) ∧ ((c0Flow s.m l j).timer = some t) ∧ ((c0Flow s.m l j).held = [q]) ∧ (isResponse q.hdr.c = false) ∧ (verdict s.gen s.m l q.hdr = .agent) ∧ (pathOf s.gen s.m l q.hdr = none) ∧ (touchesLock s.gen s.m l q.hdr = false) ∧ (q.hdr.k = 0) :=
  ⟨0x22, 2, (2 ^ 127 + 3 * 2 ^ 123 + 0x105 * 2 ^ 104 + 7 * 2 ^ 88 + 100 * 2 ^ 64), 327710000, ⟨0x105, 0xA2, false, 3, 0⟩, pk { hh 0x22 3 0 0x21 with seq := 9 }, live fun m => { (m.updTab 0x22 fun t => { t with c0dst := [(2, ⟨7, [pk { hh 0x22 3 0 0x21 with seq := 9 }], some 327710000, 0, 0, false, false, []⟩)] }) with prk := { m.prk with active := [(key 0x3522 2, (2 ^ 127 + 3 * 2 ^ 123 + 0x105 * 2 ^ 104 + 7 * 2 ^ 88 + 100 * 2 ^ 64))], st := .active } }, by decide +kernel⟩

theorem test_wit_twinMissTwo : ∃ (l : Nat) (j : Nat) (w : Nat) (k : FlowKey) (b : Bool) (a : Nat × Bool × Nat) (s : State),
    (s.gen.hasNi l = true) ∧ (s.m.nis.has l = true) ∧ (c0DstOf s.m l k.src k.vn.toNat = some (j, w)) ∧ (((c0Flow s.m l j).awaited.find? fun a => a.2.1 != b) = some a) :=
  ⟨0x22, 2, (2 ^ 127 + 3 * 2 ^ 123 + 0x105 * 2 ^ 104 + 7 * 2 ^ 88 + 100 * 2 ^ 64), ⟨0x105, 0xA2, false, 3, 0⟩, false, (5, true, 327710000), live fun m => { (m.updTab 0x22 fun t => { t with c0dst := [(2, ⟨7, [], none, 2, 2, false, false, [(4, false, 327700000), (5, true, 327710000)]⟩)] }) with prk := { m.prk with active := [(key 0x3522 2, (2 ^ 127 + 3 * 2 ^ 123 + 0x105 * 2 ^ 104 + 7 * 2 ^ 88 + 100 * 2 ^ 64))], st := .active } }, by decide +kernel⟩

theorem test_wit_twinMiss : ∃ (l : Nat) (j : Nat) (w : Nat) (k : FlowKey) (b : Bool) (a : Nat × Bool × Nat) (s : State),
    (s.gen.hasNi l = true) ∧ (s.m.nis.has l = true) ∧ (c0DstOf s.m l k.src k.vn.toNat = some (j, w)) ∧ (((c0Flow s.m l j).awaited.find? fun a => a.2.1 != b) = some a) :=
  ⟨0x22, 2, (2 ^ 127 + 3 * 2 ^ 123 + 0x105 * 2 ^ 104 + 7 * 2 ^ 88 + 100 * 2 ^ 64), ⟨0x105, 0xA2, false, 3, 0⟩, false, (5, true, 327710000), live fun m => { (m.updTab 0x22 fun t => { t with c0dst := [(2, ⟨7, [], none, 3, 3, false, false, [(4, false, 327700000), (5, true, 327710000)]⟩)] }) with prk := { m.prk with active := [(key 0x3522 2, (2 ^ 127 + 3 * 2 ^ 123 + 0x105 * 2 ^ 104 + 7 * 2 ^ 88 + 100 * 2 ^ 64))], st := .active } }, by decide +kernel⟩

theorem test_wit_twinMissTwoB : ∃ (l : Nat) (j : Nat) (w : Nat) (k : FlowKey) (b : Bool) (a : Nat × Bool × Nat) (s : State),
    (s.gen.hasNi l = true) ∧ (s.m.nis.has l = true) ∧ (c0DstOf s.m l k.src k.vn.toNat = some (j, w)) ∧ (((c0Flow s.m l j).awaited.find? fun a => a.2.1 != b) = some a) :=
  ⟨0x22, 2, (2 ^ 127 + 3 * 2 ^ 123 + 0x105 * 2 ^ 104 + 7 * 2 ^ 88 + 100 * 2 ^ 64), ⟨0x105, 0xA2, false, 3, 0⟩, true, (5, false, 327710000), live fun m => { (m.updTab 0x22 fun t => { t with c0dst := [(2, ⟨7, [], none, 2, 2, false, false, [(4, true, 327700000), (5, false, 327710000)]⟩)] }) with prk := { m.prk with active := [(key 0x3522 2, (2 ^ 127 + 3 * 2 ^ 123 + 0x105 * 2 ^ 104 + 7 * 2 ^ 88 + 100 * 2 ^ 64))], st := .active } }, by decide +kernel⟩

theorem test_wit_twinMissB : ∃ (l : Nat) (j : Nat) (w : Nat) (k : FlowKey) (b : Bool) (a : Nat × Bool × Nat) (s : State),
    (s.gen.hasNi l = true) ∧ (s.m.nis.has l = true) ∧ (c0DstOf s.m l k.src k.vn.toNat = some (j, w)) ∧ (((c0Flow s.m l j).awaited.find? fun a => a.2.1 != b) = some a) :=
  ⟨0x22, 2, (2 ^ 127 + 3 * 2 ^ 123 + 0x105 * 2 ^ 104 + 7 * 2 ^ 88 + 100 * 2 ^ 64), ⟨0x105, 0xA2, false, 3, 0⟩, true, (5, false, 327710000), live fun m => { (m.updTab 0x22 fun t => { t with c0dst := [(2, ⟨7, [], none, 3, 3, false, false, [(4, true, 327700000), (5, false, 327710000)]⟩)] }) with prk := { m.prk with active := [(key 0x3522 2, (2 ^ 127 + 3 * 2 ^ 123 + 0x105 * 2 ^ 104 + 7 * 2 ^ 88 + 100 * 2 ^ 64))], st := .active } }, by decide +kernel⟩

theorem test_wit_atomicJoin : ∃ x ∈ atomicRows, ∃ (l : Nat) (i : Nat) (n : Nat) (a : AtEnt) (p : Pkt) (s : State) (f : DstFlow),
    (inOrder s l p f) ∧ (p.hdr.c = x.2) ∧ (agentReady s l p) ∧ (pathOf s.gen s.m l p.hdr = some i) ∧ ((s.m.ni l).ep.eject.getD p.hdr.v [] = []) ∧ (atomRefused p = false) ∧ (s.m.engines.has i = true) ∧ (i < 0x1000) ∧ ((s.m.eng i).atom.find? (fun e => e.2.block == p.hdr.a / 64 && e.2.ops.length < 8 && (e.2.phase == 1 || (e.2.phase == 2 && (unsentWrite s.gen s.m i e.1).isSome))) = some (n, a)) :=
  ⟨(.atAdd, 0x40), by simp [atomicRows], 0x22, 1, 0, ⟨0x41, 3, 1, []⟩, pk { hh 0x22 0 1 64 with addr := 0x1040, csf := ((Hdr.zero.setCsf 246 244 3).setCsf 243 241 0).csf }, flow 0x22 (hh 0x22 0 1 64) 0 (·.updE 1 fun e => { e with atom := [(0, ⟨0x41, 3, 1, []⟩)] }), dflow (hh 0x22 0 1 64).flow, by decide +kernel⟩

theorem test_wit_atomicJoinWrite : ∃ x ∈ atomicRows, ∃ (l : Nat) (i : Nat) (n : Nat) (a : AtEnt) (p : Pkt) (s : State) (f : DstFlow),
    (inOrder s l p f) ∧ (p.hdr.c = x.2) ∧ (agentReady s l p) ∧ (pathOf s.gen s.m l p.hdr = some i) ∧ ((s.m.ni l).ep.eject.getD p.hdr.v [] = []) ∧ (atomRefused p = false) ∧ (s.m.engines.has i = true) ∧ (i < 0x1000) ∧ ((s.m.eng i).atom.find? (fun e => e.2.block == p.hdr.a / 64 && e.2.ops.length < 8 && (e.2.phase == 1 || (e.2.phase == 2 && (unsentWrite s.gen s.m i e.1).isSome))) = some (n, a)) :=
  ⟨(.atAdd, 0x40), by simp [atomicRows], 0x22, 1, 0, ⟨0x41, 3, 2, []⟩, pk { hh 0x22 0 1 64 with addr := 0x1040, csf := ((Hdr.zero.setCsf 246 244 3).setCsf 243 241 0).csf }, flow 0x22 (hh 0x22 0 1 64) 0 fun m => memPush (m.updE 1 fun e => { e with atom := [(0, ⟨0x41, 3, 2, []⟩)] }) 0x22 (memReq g0 m 0x22 0x22 0x1040 (apTag (engSlot g0 1) 0 true) 255 [77]), dflow (hh 0x22 0 1 64).flow, by decide +kernel⟩

theorem test_wit_npTimeoutFirst : ∃ (l : Nat) (tag : Nat) (s : State) (e : TagEnt),
    (s.gen.hasNi l = true) ∧ (s.m.nis.has l = true) ∧ ((s.m.ni l).tab.tags.get? tag = some e) ∧ (e.org = .agent) ∧ (e.part = 0) ∧ (e.fired = false) ∧ (e.orphan = false) ∧ (tagHeld s.m l tag = false) ∧ (completionHere s.m l tag = false) ∧ (e.hdr.k ≠ 0) ∧ ((s.m.ni l).ep.st = .opened) :=
  ⟨5, 0x77, live (·.updTab 5 fun t => { t with tags := [(0x77, (⟨.agent, 0x321, 0, 0, { hh 5 0 1 0 with src := 0x85, dest := 0x105, seq := 4 }, { hh 5 0 1 0 with src := 0x85, dest := 0x105 }, 100, 327680000, false, false, false⟩))] }), ⟨.agent, 0x321, 0, 0, { hh 5 0 1 0 with src := 0x85, dest := 0x105, seq := 4 }, { hh 5 0 1 0 with src := 0x85, dest := 0x105 }, 100, 327680000, false, false, false⟩, by decide +kernel⟩

theorem test_wit_npTimeoutSecond : ∃ (l : Nat) (tag : Nat) (s : State) (e : TagEnt),
    (s.gen.hasNi l = true) ∧ ((s.m.ni l).tab.tags.get? tag = some e) ∧ (e.fired = true) :=
  ⟨5, 4095, live fun m => (m.updTab 5 fun t => { t with tags := [(4095, (⟨.agent, 0x321, 0, 0, { hh 5 0 1 0 with src := 0x85, dest := 0x105, seq := 4 }, { hh 5 0 1 0 with src := 0x85, dest := 0x105 }, 100, 5, true, false, false⟩))], retx := [⟨pk { hh 5 0 1 0 with src := 0x85, dest := 0x105, seq := 4 }, .agent, false, 0, 0⟩] }).updTx 5 fun t => { t with retxQ := [pk { hh 5 0 1 0 with src := 0x85, dest := 0x105, seq := 4 }, pk { hh 5 0 1 0 with src := 0x85, dest := 0x105, seq := 5 }] }, ⟨.agent, 0x321, 0, 0, { hh 5 0 1 0 with src := 0x85, dest := 0x105, seq := 4 }, { hh 5 0 1 0 with src := 0x85, dest := 0x105 }, 100, 5, true, false, false⟩, by decide +kernel⟩

theorem test_wit_retxTimeout : ∃ (l : Nat) (k : FlowKey) (s : State) (x : Retx),
    (s.gen.hasNi l = true) ∧ (s.m.nis.has l = true) ∧ (((heldOf (s.m.ni l) k).find? fun x => x.posted) = some x) ∧ (x.pkt ∉ (s.m.ni l).tx.retxQ) ∧ ((∀ y ∈ heldOf (s.m.ni l) k, y.pkt.hdr.seq = x.pkt.hdr.seq → y.tries < niSet s.gen s.m l 0x15)) :=
  ⟨5, ⟨0x85, 0x105, false, 3, 1⟩, live fun m => (m.updTab 5 fun t => { t with retx := [(⟨pk { hh 5 3 1 0x21 with src := 0x85, dest := 0x105, seq := 4 }, .agent, true, 2, 9⟩), ⟨pk { hh 5 3 1 0x21 with src := 0x85, dest := 0x105, seq := 5 }, .agent, true, 2, 99⟩] }).updTx 5 fun t => { t with retxQ := [pk { hh 5 3 1 0x21 with src := 0x85, dest := 0x105, seq := 5 }, pk (hh 5 3 1 0x21)] }, ⟨pk { hh 5 3 1 0x21 with src := 0x85, dest := 0x105, seq := 4 }, .agent, true, 2, 9⟩, by decide +kernel⟩

theorem test_wit_nackRepeat : ∃ (l : Nat) (d : Nat) (k : FlowKey) (s : State) (f : DstFlow),
    (s.gen.hasNi l = true) ∧ (s.m.nis.has l = true) ∧ (dstOf s.m l k = some f) ∧ (f.nack = some d) ∧ (l < 127) :=
  ⟨0x22, 5, ⟨0x105, 0xA2, false, 3, 1⟩, live (·.updTab 0x22 fun t => { t with dst := [(⟨⟨0x105, 0xA2, false, 3, 1⟩, 7, some 5, 2, 9, [], 0⟩)] }), ⟨⟨0x105, 0xA2, false, 3, 1⟩, 7, some 5, 2, 9, [], 0⟩, by decide +kernel⟩

theorem test_wit_ackDelay : ∃ (l : Nat) (k : FlowKey) (s : State) (f : DstFlow),
    (s.gen.hasNi l = true) ∧ (s.m.nis.has l = true) ∧ (dstOf s.m l k = some f) ∧ (f.nack = none) ∧ (flowWaits s.m l k = false) ∧ (f.run ≤ 16) ∧ (f.e < 65536) ∧ ((f.ended = [] → f.run ≠ 0)) :=
  ⟨0x22, ⟨0x105, 0xA2, false, 3, 1⟩, live (·.updTab 0x22 fun t => { t with dst := [(⟨⟨0x105, 0xA2, false, 3, 1⟩, 7, none, 16, 327680000, [], 0⟩)] }), ⟨⟨0x105, 0xA2, false, 3, 1⟩, 7, none, 16, 327680000, [], 0⟩, ⟨by decide +kernel, by decide +kernel, by decide +kernel, by decide +kernel, by decide +kernel, by decide +kernel,
  by decide +kernel, fun _ => by decide⟩⟩

theorem test_wit_ackDelayEnded : ∃ (l : Nat) (k : FlowKey) (s : State) (f : DstFlow),
    (s.gen.hasNi l = true) ∧ (s.m.nis.has l = true) ∧ (dstOf s.m l k = some f) ∧ (f.nack = none) ∧ (flowWaits s.m l k = false) ∧ (f.run ≤ 16) ∧ (f.e < 65536) ∧ ((f.ended = [] → f.run ≠ 0)) :=
  ⟨0x22, ⟨0x105, 0xA2, false, 3, 1⟩, live (·.updTab 0x22 fun t => { t with dst := [(⟨⟨0x105, 0xA2, false, 3, 1⟩, 7, none, 3, 327680000, [(65535, 2, 100), (3, 1, 200)], 0⟩)] }), ⟨⟨0x105, 0xA2, false, 3, 1⟩, 7, none, 3, 327680000, [(65535, 2, 100), (3, 1, 200)], 0⟩, ⟨by decide +kernel, by decide +kernel, by decide +kernel, by decide +kernel, by decide +kernel, by decide +kernel,
  by decide +kernel, fun h => by simp at h⟩⟩

theorem test_wit_flowIdleDst : ∃ (l : Nat) (k : FlowKey) (s : State) (f : DstFlow),
    (s.gen.hasNi l = true) ∧ (dstOf s.m l k = some f) :=
  ⟨0x22, ⟨0x105, 0xA2, false, 3, 1⟩, live (fun m => (m.updTab 0x22 fun t => { t with dst := [(⟨⟨0x105, 0xA2, false, 3, 1⟩, 7, none, 0, 0, [], 0⟩), dflow ⟨0x105, 0xA2, false, 3, 2⟩] }).updT fun t => { t with ft := 2 ^ 60 }), ⟨⟨0x105, 0xA2, false, 3, 1⟩, 7, none, 0, 0, [], 0⟩, by decide +kernel⟩

theorem test_wit_flowIdleSrc : ∃ (l : Nat) (k : FlowKey) (s : State) (f : SrcFlow),
    (s.gen.hasNi l = true) ∧ (s.m.nis.has l = true) ∧ (((s.m.ni l).tab.src.find? fun f => f.key == k) = some f) ∧ (((s.m.ni l).tab.src.map (·.key)).Nodup) ∧ ((flowHolds s.gen s.m l k = false ∨ f.closed = true)) :=
  ⟨5, ⟨0x85, 0x105, false, 3, 1⟩, live (fun m => (m.updTab 5 fun t => { t with src := [⟨⟨0x85, 0x105, false, 3, 2⟩, 7, true, 0⟩, (⟨⟨0x85, 0x105, false, 3, 1⟩, 7, true, 0⟩)] }).updT fun t => { t with ft := 2 ^ 60 }), ⟨⟨0x85, 0x105, false, 3, 1⟩, 7, true, 0⟩, by decide +kernel⟩

theorem test_wit_mEjectTimeout : ∃ (l : Nat) (d : Nat) (s : State) (x : EjPkt) (rest : List EjPkt),
    (s.gen.hasNi l = true) ∧ (s.m.nis.has l = true) ∧ (l ≠ 0) ∧ ((s.m.ni l).ep.eject.getD 4 [] = x :: rest) ∧ (x.drop = false) ∧ (s.m.deadline (.mEject l) = some d) :=
  ⟨5, 327710000, (fun q : State => (⟨q.gen, due (.mEject 5) 327710000 q.m, q.pending⟩ : State)) (live (·.updEp 5 fun e => { e with eject := [(4, [(⟨pk (hh 5 4 1 0x80), false, none, false⟩)])], egCr := [] })), ⟨pk (hh 5 4 1 0x80), false, none, false⟩, [], by decide +kernel⟩

theorem test_wit_ingressPacket : ∃ (l : Nat) (bus : List BusFlit) (q : Ingress) (s : State),
    (s.gen.hasNi l = true) ∧ (l ≠ 0) ∧ (Ingress.ofBus bus = some q) ∧ ((s.m.ni l).ep.st = .opened) ∧ (q.otherParity = false) ∧ (q.dataParity = false) ∧ (isResponse q.hdr.c = false) ∧ (q.hdr.k ≠ 0) ∧ (1 + q.data.length ≤ (s.m.ni l).ep.inCr.getD q.ch 0) ∧ (step1 s.gen (s.m.updEp l fun e => { e with inCr := e.inCr.put q.ch (e.inCr.getD q.ch 0 - (1 + q.data.length)) }) l q = .pass) :=
  ⟨5, busOf 3 { hh 0x22 3 1 0x21 with len := 64 } [7], (Ingress.ofBus (busOf 3 { hh 0x22 3 1 0x21 with len := 64 } [7])).getD ⟨0, Hdr.zero, [], false, false, false⟩, live, by decide +kernel⟩

theorem test_wit_ingressParity : ∃ (l : Nat) (bus : List BusFlit) (q : Ingress) (s : State),
    (s.gen.hasNi l = true) ∧ (s.m.nis.has l = true) ∧ (l ≠ 0) ∧ (Ingress.ofBus bus = some q) ∧ ((s.m.ni l).ep.st = .opened) ∧ (q.otherParity = true) :=
  ⟨5, (busOf 3 { hh 0x22 3 1 0x21 with len := 64 } [7]).map fun f => { f with cpar := !f.cpar }, (Ingress.ofBus ((busOf 3 { hh 0x22 3 1 0x21 with len := 64 } [7]).map fun f => { f with cpar := !f.cpar })).getD ⟨0, Hdr.zero, [], false, false, false⟩, live, by decide +kernel⟩

theorem test_wit_busParity : ∃ (bus : List BusFlit) (q : Ingress) (f : BusFlit),
    (Ingress.ofBus bus = some q) ∧ (f ∈ bus) ∧ (ctlParity f ≠ f.cpar) :=
  ⟨(busOf 3 { hh 0x22 3 1 0x21 with len := 64 } [7]).map fun f => { f with cpar := !f.cpar }, (Ingress.ofBus ((busOf 3 { hh 0x22 3 1 0x21 with len := 64 } [7]).map fun f => { f with cpar := !f.cpar })).getD ⟨0, Hdr.zero, [], false, false, false⟩, ((busOf 3 { hh 0x22 3 1 0x21 with len := 64 } [7]).map fun f => { f with cpar := !f.cpar }).headD (busFlit 0 0 0), by decide +kernel⟩

theorem test_wit_egressCredit : ∃ (l : Nat) (ch : Nat) (n : Nat) (s : State),
    (s.gen.hasNi l = true) ∧ (ch < 6) ∧ ((s.m.ni l).ep.st = .opened) ∧ ((s.m.ni l).ep.egCr.getD ch 0 + n ≤ 32) :=
  ⟨5, 5, 32, live (·.updEp 5 fun e => { e with egCr := [] }), by decide +kernel⟩

theorem test_wit_egressPacketStart : ∃ (l : Nat) (v : Nat) (s : State) (x : EjPkt) (rest : List EjPkt),
    (s.gen.hasNi l = true) ∧ (s.m.nis.has l = true) ∧ ((s.m.ni l).ep.st = .opened) ∧ (s.m.awake (s.gen.niDom l) = true) ∧ ((s.m.ni l).ep.mem = []) ∧ ((∀ y ys, (s.m.ni l).ep.eject.getD 0 [] = y :: ys → pathOf s.gen s.m l y.pkt.hdr = none)) ∧ (((egressOrder (s.m.ni l).ep.lastVn).find? fun v => egressReady s.gen (s.m.advanceTo (s.m.ni l).ep.busy) l v) = some v) ∧ ((s.m.ni l).ep.eject.getD v [] = x :: rest) ∧ (x.drop = false) :=
  ⟨0x22, 0, live (·.updEp 0x22 fun e => { e with eject := [(0, [(⟨pk (hh 0x22 0 1 0), false, none, true⟩)])] }), ⟨pk (hh 0x22 0 1 0), false, none, true⟩, [], ⟨by decide +kernel, by decide +kernel, by decide +kernel, by decide +kernel, by decide +kernel,
  fun y ys h => by cases h; decide +kernel, by decide +kernel, by decide +kernel, by decide +kernel⟩⟩

theorem test_wit_egressPacketStartVn2 : ∃ (l : Nat) (v : Nat) (s : State) (x : EjPkt) (rest : List EjPkt),
    (s.gen.hasNi l = true) ∧ (s.m.nis.has l = true) ∧ ((s.m.ni l).ep.st = .opened) ∧ (s.m.awake (s.gen.niDom l) = true) ∧ ((s.m.ni l).ep.mem = []) ∧ ((∀ y ys, (s.m.ni l).ep.eject.getD 0 [] = y :: ys → pathOf s.gen s.m l y.pkt.hdr = none)) ∧ (((egressOrder (s.m.ni l).ep.lastVn).find? fun v => egressReady s.gen (s.m.advanceTo (s.m.ni l).ep.busy) l v) = some v) ∧ ((s.m.ni l).ep.eject.getD v [] = x :: rest) ∧ (x.drop = false) :=
  ⟨0x22, 2, live (·.updEp 0x22 fun e => { e with eject := [(2, [(⟨pk (hh 0x22 2 1 0x90), false, none, true⟩)])] }), ⟨pk (hh 0x22 2 1 0x90), false, none, true⟩, [], ⟨by decide +kernel, by decide +kernel, by decide +kernel, by decide +kernel, by decide +kernel,
  fun _ _ h => (nomatch (show ([] : List EjPkt) = _ :: _ from h)), by decide +kernel, by decide +kernel, by decide +kernel⟩⟩

theorem test_wit_agentRdyRise : ∃ (l : Nat) (s : State),
    (mayOpen s l) ∧ ((s.m.ni l).ep.st = .agentDown) ∧ ((s.m.ni l).ep.rdy = false) ∧ ((s.m.ni l).ep.waiting = false) :=
  ⟨5, live (·.updEp 5 fun _ => { Ep.reset with st := .agentDown }), by decide +kernel⟩

theorem test_wit_niOpenWaitEnd : ∃ (l : Nat) (d : Nat) (s : State),
    (mayOpen s l) ∧ ((s.m.ni l).ep.st = .opening) ∧ ((s.m.ni l).ep.rdy = true) ∧ ((s.m.ni l).ep.waiting = true) ∧ (s.m.deadline (.niOpen l) = some d) :=
  ⟨5, 327710000, (fun q : State => (⟨q.gen, due (.niOpen 5) 327710000 q.m, q.pending⟩ : State)) (live (·.updEp 5 fun _ => { Ep.reset with st := .opening, rdy := true, waiting := true })), by decide +kernel⟩

theorem test_wit_agentRdyFall : ∃ (l : Nat) (s : State),
    (s.gen.hasNi l = true) ∧ (s.m.nis.has l = true) ∧ ((s.m.ni l).ep.rdy = true) ∧ ((s.m.ni l).ep.st = .opened) :=
  ⟨0x22, live (·.updEp 0x22 fun e => { e with eject := [(0, [⟨pk (hh 0x22 0 1 0), false, none, true⟩])] }), by decide +kernel⟩

theorem test_wit_injectionAdmit : ∃ (l : Nat) (c : Nat) (a : Arb) (p : Pkt) (s : State),
    (stageStarts s l c a ⟨.internal, [p], .agent⟩) ∧ (reachable s l p.hdr) ∧ (p.hdr.np = false) :=
  ⟨0x22, 1, (injChoice g0 (atStage (live (·.updTx 0x22 fun t => { t with internal := [rspPkt { hh 0x22 0 1 0 with src := 0x85 } 0xA2 0] })) 0x22) 0x22).2, rspPkt { hh 0x22 0 1 0 with src := 0x85 } 0xA2 0, live (·.updTx 0x22 fun t => { t with internal := [(rspPkt { hh 0x22 0 1 0 with src := 0x85 } 0xA2 0)] }), by decide +kernel⟩

theorem test_wit_injectionAdmitAck : ∃ (l : Nat) (c : Nat) (a : Arb) (p : Pkt) (s : State),
    (stageStarts s l c a ⟨.internal, [p], .agent⟩) ∧ (reachable s l p.hdr) ∧ (p.hdr.np = false) :=
  ⟨0x22, 1, (injChoice g0 (atStage (live (·.updTx 0x22 fun t => { t with internal := [ackPkt 0xA2 ⟨0x85, 0xA2, false, 3, 1⟩ 5 2] })) 0x22) 0x22).2, ackPkt 0xA2 ⟨0x85, 0xA2, false, 3, 1⟩ 5 2, live (·.updTx 0x22 fun t => { t with internal := [(ackPkt 0xA2 ⟨0x85, 0xA2, false, 3, 1⟩ 5 2)] }), by decide +kernel⟩

theorem test_wit_injectionReset : ∃ (l : Nat) (s : State),
    (s.gen.hasNi l = true) ∧ (s.m.nis.has l = true) :=
  ⟨5, live, by decide +kernel⟩

theorem test_wit_heldStoreRelease : ∃ (l : Nat) (c : Nat) (a : Arb) (p : Pkt) (hd : Held) (m' : Mach) (s : State),
    (stageStarts s l c a ⟨.held, [p], .agent⟩) ∧ (heldPick s.gen (atStage s l) l c = some (hd, m')) ∧ (hd.org = .agent) ∧ (hd.parts = [p]) ∧ (hd.req = p.hdr) ∧ (p.hdr.np = false) ∧ (reachable s l p.hdr) :=
  ⟨5, 1, (injChoice g0 (atStage (live (·.updTx 5 fun t => { t with held := [⟨.agent, 0, [pk { hh 0x22 3 1 0x21 with len := 64 } [7]], [], (pk { hh 0x22 3 1 0x21 with len := 64 } [7]).hdr, 5⟩] })) 5) 5).2, pk { hh 0x22 3 1 0x21 with len := 64 } [7], ⟨.agent, 0, [pk { hh 0x22 3 1 0x21 with len := 64 } [7]], [], (pk { hh 0x22 3 1 0x21 with len := 64 } [7]).hdr, 5⟩, ((heldPick g0 (atStage (live (·.updTx 5 fun t => { t with held := [⟨.agent, 0, [pk { hh 0x22 3 1 0x21 with len := 64 } [7]], [], (pk { hh 0x22 3 1 0x21 with len := 64 } [7]).hdr, 5⟩] })) 5) 5 1).map (·.2)).getD (liveOf g0), live (·.updTx 5 fun t => { t with held := [⟨.agent, 0, [pk { hh 0x22 3 1 0x21 with len := 64 } [7]], [], (pk { hh 0x22 3 1 0x21 with len := 64 } [7]).hdr, 5⟩] }), by decide +kernel⟩

theorem test_wit_c0Start : ∃ (l : Nat) (rsv : Nat) (j : Nat) (w : Nat) (p : Pkt) (s : State),
    (s.gen.hasNi l = true) ∧ (s.m.nis.has l = true) ∧ (((c0Descs s.m 0x3400 l).find? fun x => rsv != 0 && (rsvA x.2 == rsv || rsvB x.2 == rsv)) = some (j, w)) ∧ (c0IsStart s.gen s.m l rsv = true) ∧ ((s.m.ni l).tx.c0q.get? (2 * j + if rsvA w = rsv then 0 else 1) = some p) ∧ (c0Suppressed s.m (if rsvA w = rsv then fld w 63 48 else fld w 47 32) = false) :=
  ⟨5, 7, 3, 2 ^ 127 + 3 * 2 ^ 123 + 0xA2 * 2 ^ 104 + 7 * 2 ^ 92 + 8 * 2 ^ 80, pk (hh 0x22 3 0 0x21), live fun m => { (m.updTx 5 fun t => { t with c0q := [(6, (pk (hh 0x22 3 0 0x21))), (7, (pk (hh 0x22 3 0 0x21)))] }) with prk := { m.prk with st := .active, period := 64, active := [(key 0x3405 3, (2 ^ 127 + 3 * 2 ^ 123 + 0xA2 * 2 ^ 104 + 7 * 2 ^ 92 + 8 * 2 ^ 80)), (key (0x3800 + 8 * 1 + 0) 18, 2 ^ 31 + 4 * 2 ^ 27 + 1 * 2 ^ 24 + 18 * 2 ^ 12 + 7)] } }, by decide +kernel⟩

theorem test_wit_c0Suppressed : ∃ (l : Nat) (rsv : Nat) (j : Nat) (w : Nat) (p : Pkt) (s : State),
    (s.gen.hasNi l = true) ∧ (l < 127) ∧ (((c0Descs s.m 0x3400 l).find? fun x => rsv != 0 && (rsvA x.2 == rsv || rsvB x.2 == rsv)) = some (j, w)) ∧ (c0IsStart s.gen s.m l rsv = true) ∧ ((s.m.ni l).tx.c0q.get? (2 * j + if rsvA w = rsv then 0 else 1) = some p) ∧ (c0Suppressed s.m (if rsvA w = rsv then fld w 63 48 else fld w 47 32) = true) :=
  ⟨5, 8, 3, 2 ^ 127 + 3 * 2 ^ 123 + 0xA2 * 2 ^ 104 + 7 * 2 ^ 92 + 8 * 2 ^ 80 + 5 * 2 ^ 32, pk (hh 0x22 3 0 0x21), live fun m => { (m.updTx 5 fun t => { t with c0q := [(6, (pk (hh 0x22 3 0 0x21))), (7, (pk (hh 0x22 3 0 0x21)))] }) with prk := { m.prk with st := .activeArmed, slot := 10006, period := 64, active := [(key 0x3405 3, (2 ^ 127 + 3 * 2 ^ 123 + 0xA2 * 2 ^ 104 + 7 * 2 ^ 92 + 8 * 2 ^ 80 + 5 * 2 ^ 32)), (key (0x3800 + 8 * 1 + 0) 18, 2 ^ 31 + 4 * 2 ^ 27 + 1 * 2 ^ 24 + 18 * 2 ^ 12 + 8)] } }, by decide +kernel⟩

theorem test_wit_guardSwap : ∃ (v : Nat) (s : State),
    ((v = 0x7F ∨ s.gen.isInit v = true)) ∧ (s.m.nis.has v = true ∨ v = 0x7F) ∧ (((s.gen.nis.map (·.loc)).Nodup)) :=
  ⟨0x7F, live, by decide +kernel⟩

theorem test_wit_guardSwapOne : ∃ (v : Nat) (s : State),
    ((v = 0x7F ∨ s.gen.isInit v = true)) ∧ (s.m.nis.has v = true ∨ v = 0x7F) ∧ (((s.gen.nis.map (·.loc)).Nodup)) :=
  ⟨0x22, live, by decide +kernel⟩

theorem test_wit_guardSwapEffect : ∃ (l : Nat) (s : State),
    (s.gen.isInit l = true) ∧ (s.m.nis.has l = true) ∧ ((s.m.ni l).guard.swaps ≠ 0) :=
  ⟨5, live (·.updN 5 fun n => { n with guard := ⟨[(1, 5), (2, 6)], [(1, 2 ^ 127 + 2 ^ 126 + 7), (31, 2 ^ 127 + 9)], false, 0, 2, false⟩ }), by decide +kernel⟩

theorem test_wit_guardSwapEffectB : ∃ (l : Nat) (s : State),
    (s.gen.isInit l = true) ∧ (s.m.nis.has l = true) ∧ ((s.m.ni l).guard.swaps ≠ 0) :=
  ⟨5, live (·.updN 5 fun n => { n with guard := ⟨[(0, 2 ^ 127 + 2 ^ 126 + 7), (31, 2 ^ 127 + 2 ^ 126 + 9)], [(1, 5), (31, 6)], true, 1, 1, false⟩ }), by decide +kernel⟩

theorem test_wit_denyClear : ∃ (l : Nat) (s : State),
    (s.gen.hasNi l = true) ∧ (s.gen.isInit l = true) :=
  ⟨5, live (·.setReg (guardKey 5 3) 7), by decide +kernel⟩

theorem test_wit_pvRelease : ∃ (l : Nat) (s : State),
    (s.gen.hasNi l = true) ∧ (s.m.nis.has l = true) ∧ (l ≠ 0) :=
  ⟨5, live fun m => ((m.setReg (niKey 5 0x40) 7).setReg (niKey 5 0x42) 1).updEp 5 fun e => { e with quarantined := true, st := .closed }, by decide +kernel⟩

theorem test_wit_vpEnable : ∃ (l : Nat) (v : Nat) (s : State),
    (hasVp s l v) ∧ ((s.m.vp l v).st = .disabled) ∧ (let w := s.m.reg s.gen (vpKey 0x4800 l v); (bit w 31 = false) ∧ (fld w 30 29 ≠ 3) ∧ (fld w 28 16 ≤ 4096) ∧ (fld w 15 8 ≠ 0)) :=
  ⟨5, 1023, live, by decide +kernel⟩

theorem test_wit_vpDisable : ∃ (l : Nat) (v : Nat) (s : State),
    (hasVp s l v) ∧ ((s.m.vp l v).st = .frozen) ∧ (let w := s.m.reg s.gen (vpKey 0x4800 l v); (bit w 31 = true) ∧ (fld w 30 29 ≠ 3) ∧ (fld w 28 16 ≤ 4096) ∧ (fld w 15 8 ≠ 0)) :=
  ⟨5, 3, live fun m => (m.setReg (vpKey 0x4800 5 3) 0x80100100).updVp 5 3 fun x => { x with st := .frozen }, by decide +kernel⟩

theorem test_wit_freeze : ∃ (l : Nat) (v : Nat) (s : State),
    (hasVp s l v) ∧ ((s.m.ni l).job = none) ∧ ((s.m.vp l v).st = .running) :=
  ⟨5, 0, live, by decide +kernel⟩

theorem test_wit_thaw : ∃ (l : Nat) (v : Nat) (s : State),
    (hasVp s l v) ∧ ((s.m.ni l).job = none) ∧ (((s.m.vp l v).st = .freezing ∨ (s.m.vp l v).st = .frozen)) :=
  ⟨5, 3, live (·.updVp 5 3 fun x => { x with st := .frozen }), by decide +kernel⟩

theorem test_wit_thawFreezing : ∃ (l : Nat) (v : Nat) (s : State),
    (hasVp s l v) ∧ ((s.m.ni l).job = none) ∧ (((s.m.vp l v).st = .freezing ∨ (s.m.vp l v).st = .frozen)) :=
  ⟨5, 3, live (·.updVp 5 3 fun x => { x with st := .freezing }), by decide +kernel⟩

theorem test_wit_save : ∃ (l : Nat) (v : Nat) (s : State),
    (hasVp s l v) ∧ ((s.m.ni l).job = none) ∧ ((s.m.vp l v).st = .frozen) ∧ (s.m.reg s.gen (vpKey 0x4800 l v) < 2 ^ 32) ∧ (vpShape s.gen s.m l v < 2 ^ 32) :=
  ⟨5, 3, live fun m => (m.setReg (vpKey 0x4C00 5 3) 0x10001).updVp 5 3 fun x => { x with st := .frozen, deficit := 9 }, by decide +kernel⟩

theorem test_wit_restore : ∃ (l : Nat) (v : Nat) (s : State),
    (hasVp s l v) ∧ (l ≠ 0) ∧ (l < 127) ∧ ((s.m.ni l).job = none) ∧ ((s.m.vp l v).st = .disabled) ∧ (let w := s.m.reg s.gen (vpImageKey l); (crc32c (toBytes w 252) = fld w 2047 2016) ∧ (fld w 31 8 = 0x000302)) :=
  ⟨5, 3, imgState img, ⟨by decide +kernel, by decide +kernel, by decide +kernel, by decide +kernel, by decide +kernel, by
  rw [reg_img]; exact ⟨crc_img.trans (by decide +kernel), by decide +kernel⟩⟩⟩

theorem test_wit_restoreBad : ∃ (l : Nat) (v : Nat) (s : State),
    (hasVp s l v) ∧ ((s.m.ni l).job = none) ∧ ((s.m.vp l v).st = .disabled) ∧ (crc32c (toBytes (s.m.reg s.gen (vpImageKey l)) 252) ≠ fld (s.m.reg s.gen (vpImageKey l)) 2047 2016) :=
  ⟨5, 3, imgState (img + 2 ^ 2016), ⟨by decide +kernel, by decide +kernel, by decide +kernel, by
  rw [reg_bad, show toBytes (img + 2 ^ 2016) 252 = toBytes img 252 from by decide +kernel, crc_img]; decide +kernel⟩⟩

theorem test_wit_reset : ∃ (l : Nat) (v : Nat) (s : State),
    (hasVp s l v) ∧ (l < 127) ∧ ((s.m.ni l).job = none) ∧ (((s.m.vp l v).st = .running ∨ (s.m.vp l v).st = .freezing ∨ (s.m.vp l v).st = .frozen)) :=
  ⟨5, 0, live (·.updTx 5 fun t => { t with held := [⟨.agent, 0, [pk { hh 0x22 3 1 0x21 with len := 64 } [7]], [], (pk { hh 0x22 3 1 0x21 with len := 64 } [7]).hdr, 5⟩], mirror := [pk (hh 0x22 3 1 0x21)] }), by decide +kernel⟩

theorem test_wit_wrongState : ∃ (l : Nat) (v : Nat) (s : State),
    (hasVp s l v) ∧ ((s.m.ni l).job = none) :=
  ⟨5, 3, live, by decide +kernel⟩

theorem test_wit_wrongStateFrozen : ∃ (l : Nat) (v : Nat) (s : State),
    (hasVp s l v) ∧ ((s.m.ni l).job = none) :=
  ⟨5, 3, live (·.updVp 5 3 fun x => { x with st := .frozen }), by decide +kernel⟩

theorem test_wit_wrongStateRunning : ∃ (l : Nat) (v : Nat) (s : State),
    (hasVp s l v) ∧ ((s.m.ni l).job = none) :=
  ⟨5, 0, live, by decide +kernel⟩

theorem test_wit_vpFrozen : ∃ (l : Nat) (v : Nat) (x : Vp) (s : State),
    (hasVp s l v) ∧ ((s.m.ni l).vps.get? v = some x) ∧ (x.st = .freezing) ∧ (vpDrained (s.m.ni l) v = true) ∧ ((s.m.ni l).job = some ⟨1, v, [], false⟩) :=
  ⟨5, 3, ⟨.freezing, ⟨5, 6, 0, 0⟩, 9, false, 0⟩, live (·.updN 5 fun n => { n with vps := [(3, (⟨.freezing, ⟨5, 6, 0, 0⟩, 9, false, 0⟩))], job := some ⟨1, 3, [], false⟩ }), by decide +kernel⟩

theorem test_wit_vpFreezeTimeout : ∃ (l : Nat) (v : Nat) (d : Nat) (s : State),
    (s.gen.hasNi l = true) ∧ ((s.m.ni l).job = some ⟨1, v, [], false⟩) ∧ (vpDrained (s.m.ni l) v = false) ∧ (s.m.deadline (.vpFreeze l) = some d) :=
  ⟨5, 3, 327710000, (fun q : State => (⟨q.gen, due (.vpFreeze 5) 327710000 q.m, q.pending⟩ : State)) (live (·.updN 5 fun n => { n with vps := [(3, ⟨.freezing, ⟨5, 6, 0, 0⟩, 9, false, 0⟩)], job := some ⟨1, 3, [], false⟩, ep := { n.ep with ingress := [(3, [pk { hh 0x22 3 1 0x21 with vport := 3 }])] } })), by decide +kernel⟩

theorem test_wit_squashRoundTimeout : ∃ (l : Nat) (d : Nat) (s : State) (j : VpJob),
    (s.gen.hasNi l = true) ∧ (s.m.nis.has l = true) ∧ ((s.m.ni l).job = some j) ∧ (j.op = 5) ∧ (j.nodes ≠ []) ∧ (s.m.deadline (.squash l) = some d) :=
  ⟨5, 327710000, (fun q : State => (⟨q.gen, due (.squash 5) 327710000 q.m, q.pending⟩ : State)) (live fun m => (m.updN 5 fun n => { n with job := some (⟨5, 3, [2, 9], false⟩) }).updSh fun x => { x with calls := [(0, .squash 5 2), (1, .squash 0x22 2), (7, .squash 5 9)] }), ⟨5, 3, [2, 9], false⟩, by decide +kernel⟩

theorem test_wit_vpResetDone : ∃ (l : Nat) (s : State) (j : VpJob),
    (hasVp s l j.v) ∧ (l ≠ 0) ∧ (l < 127) ∧ ((s.m.ni l).job = some j) ∧ (j.op = 5) ∧ (j.nodes = []) ∧ (vpTags (s.m.ni l) j.v = 0) ∧ (vpRetx (s.m.ni l) j.v = 0) ∧ (vpMirrored (s.m.ni l) j.v = false) :=
  ⟨5, live fun m => (m.updN 5 fun n => { n with job := some (⟨5, 3, [], true⟩), vps := [(3, ⟨.resetting, ⟨5, 6, 0, 0⟩, 9, false, 0⟩)] }).setReg (vpKey 0x4C00 5 3) 0x12345, ⟨5, 3, [], true⟩, by decide +kernel⟩

theorem test_wit_groupEnable : ∃ (n : Nat) (s : State),
    (n < 1024) ∧ (treeOk s.gen s.m n = true) :=
  ⟨1023, live fun m => m.setReg (key (0x2400 + 1023) 0) 0x90, by decide +kernel⟩

theorem test_wit_groupEnablePending : ∃ (n : Nat) (s : State),
    (n < 1024) ∧ (treeOk s.gen s.m n = true) :=
  ⟨5, live fun m => { m with regs := (m.setReg (key 0x2405 0) 0x90).regs, inForce := [(key 0x2405 0, 0)] }, by decide +kernel⟩

theorem test_wit_groupRefused : ∃ (n : Nat) (s : State),
    (n < 1024) ∧ (treeOk s.gen s.m n = false) :=
  ⟨5, live fun m => m.setReg (key 0x2405 0) 0xFF, by decide +kernel⟩

theorem test_wit_groupDisable : ∃ (n : Nat) (s : State),
    (n < 1024) ∧ (s.m.groupEnabled s.gen n = true) :=
  ⟨5, live fun m => m.setReg (groupKey 5) 1, by decide +kernel⟩

theorem test_wit_groupDrained : ∃ (n : Nat) (d : Nat) (s : State),
    (n < 1024) ∧ (s.m.deadline (.group n) = some d) :=
  ⟨5, 327710000, (fun q : State => (⟨q.gen, due (.group 5) 327710000 q.m, q.pending⟩ : State)) (live fun m => m.updSh fun x => { x with draining := [4, 5] }), by decide +kernel⟩

theorem test_wit_flitHeader : ∃ (r : Nat) (p : Nat) (w : WireFlit) (f : Flit) (t : Nat × Nat) (s : State),
    (hasPortOf s r p) ∧ (p ≠ 6) ∧ (cleanWord s (.rtr r p) w f) ∧ (f.fvalid = true) ∧ (f.crvalid = false) ∧ (f.lseq = (s.m.inp s.gen r p).lseq) ∧ (f.fidx = 0) ∧ ((f.ftype = 1 ∨ f.ftype = 3)) ∧ (f.vc < 12) ∧ (holdsUnrouted s.gen s.m r = false) ∧ (let h := Hdr.ofBits f.payload; (h.mcast = false) ∧ (resolve s.gen s.m r h = some t) ∧ (illegalRoute s.gen r p h.laPort.toNat = false)) :=
  ⟨17, 2, ({ ((⟨{ hh 0x22 0 1 0 with laPort := 4, dateline := true }, [], false, []⟩ : Pkt).flit 1 0 11 255 none) with poison := true }).pack, { ((⟨{ hh 0x22 0 1 0 with laPort := 4, dateline := true }, [], false, []⟩ : Pkt).flit 1 0 11 255 none) with poison := true }, (17, 4), live fun m => m.updIn 17 2 fun i => { i with lseq := 255 }, by decide +kernel⟩

theorem test_wit_flitHeaderTurn : ∃ (r : Nat) (p : Nat) (w : WireFlit) (f : Flit) (t : Nat × Nat) (s : State),
    (hasPortOf s r p) ∧ (p ≠ 6) ∧ (cleanWord s (.rtr r p) w f) ∧ (f.fvalid = true) ∧ (f.crvalid = false) ∧ (f.lseq = (s.m.inp s.gen r p).lseq) ∧ (f.fidx = 0) ∧ ((f.ftype = 1 ∨ f.ftype = 3)) ∧ (f.vc < 12) ∧ (holdsUnrouted s.gen s.m r = false) ∧ (let h := Hdr.ofBits f.payload; (h.mcast = false) ∧ (resolve s.gen s.m r h = some t) ∧ (illegalRoute s.gen r p h.laPort.toNat = false)) :=
  ⟨0, 4, (((⟨{ hh 0x22 0 1 0 with laPort := 2 }, [], false, []⟩ : Pkt).flit 1 0 0 0 none)).pack, ((⟨{ hh 0x22 0 1 0 with laPort := 2 }, [], false, []⟩ : Pkt).flit 1 0 0 0 none), (17, 4), live, by decide +kernel⟩

theorem test_wit_flitAtNi : ∃ (l : Nat) (w : WireFlit) (f : Flit) (s : State),
    (s.gen.hasNi l = true) ∧ (s.m.nis.has l = true) ∧ (cleanWord s (.ni l) w f) ∧ (f.fvalid = true) ∧ (f.crvalid = false) ∧ (f.lseq = (s.m.ni l).rx.lseq) ∧ (f.fidx = 0) ∧ (f.ftype = 3) ∧ ((Hdr.ofBits f.payload).flits = 1) :=
  ⟨0x22, ((pk (hh 0x22 0 1 0)).flit 1 0 0 0 none).pack, (pk (hh 0x22 0 1 0)).flit 1 0 0 0 none, live, by decide +kernel⟩

theorem test_wit_flitCredit : ∃ (r : Nat) (p : Nat) (w : WireFlit) (f : Flit) (s : State),
    (hasPortOf s r p) ∧ (cleanWord s (.rtr r p) w f) ∧ (f.fvalid = false) ∧ (f.crvalid = true) ∧ (f.crvc < 12) :=
  ⟨17, 4, (idleFlit (some 11)).pack, idleFlit (some 11), live fun m => m.updOut 17 4 fun o => { o with cr := o.cr.put 11 2 }, by decide +kernel⟩

theorem test_wit_flitReset : ∃ (r : Nat) (p : Nat) (c : Nat) (bad : Nat) (w : WireFlit) (f : Flit) (s : State),
    (hasPortOf s r p) ∧ (unpackFlit w = (f, c, bad)) ∧ (endClosed s.gen s.m (.rtr r p) = false) ∧ ((s.m.dom (s.gen.region r)).st = .p0) ∧ ((s.m.dom (s.gen.region r)).inReset = false) ∧ (bit bad 2 = true) :=
  ⟨17, 4, 0, 4, (idleFlit (some 11)).pack ^^^ BitVec.twoPow 576 256 ^^^ BitVec.twoPow 576 300, (unpackFlit ((idleFlit (some 11)).pack ^^^ BitVec.twoPow 576 256 ^^^ BitVec.twoPow 576 300)).1, live, by decide +kernel⟩

theorem test_wit_linkReopen : ∃ (r : Nat) (p : Nat) (d : Nat) (s : State),
    (hasPortOf s r p) ∧ ((s.m.inp s.gen r p).resetting = true) ∧ ((s.m.outp s.gen r p).dead = false) ∧ (s.m.deadline (.linkReset (linkKey (.rtr r p))) = some d) :=
  ⟨17, 0, 327710000, (fun q : State => (⟨q.gen, due (.linkReset (linkKey (.rtr 17 0))) 327710000 q.m, q.pending⟩ : State)) (live fun m => (m.updIn 17 0 fun i => { i with resetting := true, lseq := 9 }).updOut 17 0 fun o => { o with lseq := 7, cr := [], q := [⟨pk (hh 0x22 0 1 0), 2, 2, 0, 4, 1, 1, false, false⟩] }), by decide +kernel⟩

theorem test_wit_allocation : ∃ (r : Nat) (o : Nat) (q : Req) (b : BufPkt) (s : State),
    (hasPortOf s r o) ∧ (forwards s.m s.gen r = true) ∧ ((s.m.rt s.gen r).cyclic = false) ∧ ((s.m.rt s.gen r).want = none) ∧ ((s.m.rt s.gen r).conns = []) ∧ (answerDead s.gen (abandonDead s.gen s.m r) r = s.m) ∧ (requests s.gen (withResidue s r) (withResidue s r) r = [q]) ∧ (q.outs = [o]) ∧ (requester (((withResidue s r).inp s.gen r q.inp).vcs.getD q.vc []) = some b) ∧ (b.pkt.hdr.mcast = false) ∧ (b.pkt.badHdr = false) ∧ (b.pkt.badData = []) :=
  ⟨17, 4, ⟨2, 1, [4], 1, (pk (hh 0x22 0 1 0)).hdr⟩, ⟨pk (hh 0x22 0 1 0), 1, 1, [4], [], 0, false⟩, live fun m => m.updIn 17 2 fun i => { i with vcs := [(1, [(⟨pk (hh 0x22 0 1 0), 1, 1, [4], [], 0, false⟩)])] }, by decide +kernel⟩

theorem test_wit_allocationThrough : ∃ (r : Nat) (o : Nat) (q : Req) (b : BufPkt) (s : State),
    (hasPortOf s r o) ∧ (forwards s.m s.gen r = true) ∧ ((s.m.rt s.gen r).cyclic = false) ∧ ((s.m.rt s.gen r).want = none) ∧ ((s.m.rt s.gen r).conns = []) ∧ (answerDead s.gen (abandonDead s.gen s.m r) r = s.m) ∧ (requests s.gen (withResidue s r) (withResidue s r) r = [q]) ∧ (q.outs = [o]) ∧ (requester (((withResidue s r).inp s.gen r q.inp).vcs.getD q.vc []) = some b) ∧ (b.pkt.hdr.mcast = false) ∧ (b.pkt.badHdr = false) ∧ (b.pkt.badData = []) :=
  ⟨0, 2, ⟨4, 6, [2], 2, { hh 0x22 3 1 0x21 with len := 64, laPort := 0 }⟩, ⟨⟨{ hh 0x22 3 1 0x21 with len := 64, laPort := 0 }, [], false, []⟩, 2, 2, [2], [], 0, false⟩, live fun m => m.updIn 0 4 fun i => { i with vcs := [(6, [(⟨⟨{ hh 0x22 3 1 0x21 with len := 64, laPort := 0 }, [], false, []⟩, 2, 2, [2], [], 0, false⟩)])] }, by decide +kernel⟩

theorem test_wit_allocationParity : ∃ (r : Nat) (s : State),
    (s.gen.hasRouter r = true) ∧ (s.m.routers.has r = true) ∧ ((s.m.rt s.gen r).cyclic = false) :=
  ⟨17, live fun m => m.updR 17 fun x => { x with conns := [⟨0, 1, 2, 1, 3⟩, ⟨1, 1, 3, 0, 1⟩] }, by decide +kernel⟩

theorem test_wit_selectStart : ∃ (r : Nat) (p : Nat) (c : Nat) (a : Arb) (t : TxPkt) (s : State),
    (mayStart s r p) ∧ (((s.m.outp s.gen r p).q.find? fun t => 0 < t.sent) = none) ∧ ((s.m.outp s.gen r p).c0 = []) ∧ (outChoice (fixedOut s r p) s.gen r p = (.start c, a)) ∧ (outCandidate ((fixedOut s r p).outp s.gen r p) c = some t) ∧ (bridgeRoom s.gen s.m (farEnd s.gen r p) t.need = true) :=
  ⟨17, 0, 1, (Arb.pick ⟨((liveOf g0).outp g0 17 0).dw, ((liveOf g0).outp g0 17 0).w, none⟩ none (fun c => (outCandidate { OutPort.reset with q := [(⟨pk (hh 0x22 0 1 0), 1, 1, 0, 4, 0, 0, false, false⟩)] } c).map (·.need)) (fun n => (live fun m => (m.updOut 17 0 fun o => { o with q := [(⟨pk (hh 0x22 0 1 0), 1, 1, 0, 4, 0, 0, false, false⟩)], lseq := 255 }).updIn 17 0 fun i => { i with credits := [3] }).m.fits 17 0 n) 5).2, ⟨pk (hh 0x22 0 1 0), 1, 1, 0, 4, 0, 0, false, false⟩, live fun m => (m.updOut 17 0 fun o => { o with q := [(⟨pk (hh 0x22 0 1 0), 1, 1, 0, 4, 0, 0, false, false⟩)], lseq := 255 }).updIn 17 0 fun i => { i with credits := [3] }, by decide +kernel⟩

theorem test_wit_selectNext : ∃ (r : Nat) (p : Nat) (t : TxPkt) (s : State),
    (mayStart s r p) ∧ (((s.m.outp s.gen r p).q.find? fun t => 0 < t.sent) = some t) ∧ (t.sent < t.got) :=
  ⟨17, 0, ⟨pk { hh 0x22 3 1 0x21 with len := 64 } [7], 2, 2, 1, 4, 0, 0, false, false⟩, live fun m => m.updOut 17 0 fun o => { o with q := [⟨pk (hh 0x22 0 1 0), 1, 1, 0, 4, 0, 0, false, false⟩, (⟨pk { hh 0x22 3 1 0x21 with len := 64 } [7], 2, 2, 1, 4, 0, 0, false, false⟩)], lseq := 200 }, by decide +kernel⟩

theorem test_wit_selectWait : ∃ (r : Nat) (p : Nat) (t : TxPkt) (s : State),
    (mayStart s r p) ∧ (((s.m.outp s.gen r p).q.find? fun t => 0 < t.sent) = some t) ∧ (t.got ≤ t.sent) :=
  ⟨17, 0, ⟨pk { hh 0x22 3 1 0x21 with len := 64 } [7], 2, 1, 1, 4, 0, 0, false, false⟩, live fun m => m.updOut 17 0 fun o => { o with q := [⟨pk (hh 0x22 0 1 0), 1, 1, 0, 4, 0, 0, false, false⟩, (⟨pk { hh 0x22 3 1 0x21 with len := 64 } [7], 2, 1, 1, 4, 0, 0, false, false⟩)], lseq := 200 }, by decide +kernel⟩

theorem test_wit_residueTimeout : ∃ (r : Nat) (p : Nat) (vc : Nat) (d : Nat) (b : BufPkt) (t : Nat × Nat) (s : State),
    (hasPortOf s r p) ∧ (vc < 12) ∧ (p ≠ ownInput) ∧ ((s.m.inp s.gen r p).vcs.getD vc [] = [b]) ∧ ((s.m.inp s.gen r p).vcs.has vc = true) ∧ (b.todo ≠ []) ∧ (b.live = []) ∧ (b.got = b.need) ∧ (b.pkt.hdr.mcast = true) ∧ (b.asked = true) ∧ (s.m.deadline (.residue r p vc) = some d) ∧ (resolve s.gen s.m r { Hdr.zero with dest := b.pkt.hdr.src, src := s.m.fid s.gen 0, vn := 2, cls := 1, cmd := 0xF4 } = some t) :=
  ⟨17, 0, 8, 327710000, ⟨pk { hh 0x22 4 1 0x80 with mcast := true, src := 0x85 }, 1, 1, [4, 2], [], 0, true⟩, (1, 4), (fun q : State => (⟨q.gen, due (.residue 17 0 8) 327710000 q.m, q.pending⟩ : State)) (live fun m => m.updIn 17 0 fun i => { i with vcs := [(8, [(⟨pk { hh 0x22 4 1 0x80 with mcast := true, src := 0x85 }, 1, 1, [4, 2], [], 0, true⟩)])] }), by decide +kernel⟩

theorem test_wit_routeStateArrival : ∃ (r : Nat) (s : State),
    (s.gen.hasRouter r = true) :=
  ⟨17, live, by decide +kernel⟩

theorem test_wit_dtAlphaArrival : ∃ (r : Nat) (s : State),
    (s.gen.hasRouter r = true) :=
  ⟨0, live, by decide +kernel⟩

theorem test_wit_classWeightArrival : ∃ (e : LinkEnd) (s : State),
    (endPresent s.gen e = true) :=
  ⟨.rtr 17 4, live, by decide +kernel⟩

theorem test_wit_classWeightArrivalNi : ∃ (e : LinkEnd) (s : State),
    (endPresent s.gen e = true) :=
  ⟨.ni 0x22, live, by decide +kernel⟩

theorem test_wit_cyclicModeChange : ∃ (r : Nat) (b : Bool) (s : State),
    (s.gen.hasRouter r = true) ∧ (s.m.routers.has r = true) ∧ ((s.m.rt s.gen r).want = some b) ∧ ((s.m.rt s.gen r).conns = []) :=
  ⟨17, false, live fun m => m.updR 17 fun x => { x with want := some false, cyclic := true, cause := 2, mids := [(3, (⟨pk (hh 0x22 0 1 0), 1, 1, 0, 4, 0, 0, false, false⟩, 4)), (5, (⟨pk (hh 0x22 0 1 1), 1, 1, 0, 4, 0, 0, false, false⟩, 0))] }, by decide +kernel⟩

theorem test_wit_cyclicModeChangeOn : ∃ (r : Nat) (b : Bool) (s : State),
    (s.gen.hasRouter r = true) ∧ (s.m.routers.has r = true) ∧ ((s.m.rt s.gen r).want = some b) ∧ ((s.m.rt s.gen r).conns = []) :=
  ⟨17, true, live fun m => m.updR 17 fun x => { x with want := some true, cause := 2 }, by decide +kernel⟩

theorem test_wit_superframeSend : ∃ (p : Nat) (s : State),
    (portThere s p) ∧ ((s.m.port p).link = .up) ∧ ((s.m.port p).pwr = 0) ∧ ((∀ c, (s.m.chan p c).tsMark % 4 ≠ 2)) :=
  ⟨0, live, ⟨by decide +kernel, by decide +kernel, by decide +kernel, chanMark (by decide +kernel)⟩⟩

theorem test_wit_superframeSendLr : ∃ (p : Nat) (s : State),
    (portThere s p) ∧ ((s.m.port p).link = .up) ∧ ((s.m.port p).pwr = 0) ∧ ((∀ c, (s.m.chan p c).tsMark % 4 ≠ 2)) :=
  ⟨0, live (fun m => m.updP 0 fun x => { x with sfNum := 65535, trained := 5 }) gLr, ⟨by decide +kernel, by decide +kernel, by decide +kernel, chanMark (by decide +kernel)⟩⟩

theorem test_wit_superframeIdle : ∃ (p : Nat) (s : State),
    (portThere s p) ∧ (s.gen.phy p = 0) ∧ ((s.m.port p).link ≠ .up) ∧ ((s.m.port p).link ≠ .laneTrain) :=
  ⟨0, live fun m => m.updP 0 fun x => { x with link := .param, trained := 0, found := 3 }, by decide +kernel⟩

theorem test_wit_frameGood : ∃ (p : Nat) (f : Frame) (s : State),
    (frameComes s p f) ∧ (f.crc = f.crc16 (s.gen.phy p == 2)) ∧ (f.rxErr = false) ∧ (frameBroken (s.m.chan p f.on) f = false) ∧ ((∀ x, (lowFlits f).head? = some x → wfLseq x.2 = (s.m.chan p f.on).e)) ∧ ((s.m.chan p f.on).swallow = []) :=
  ⟨0, frm [((pk (hh 0x22 0 1 0)).flit 1 0 0 5 none).pack] 2, live fun m => m.updC 0 2 fun x => { x with e := 5, owed := [(0, 1)] }, ⟨by decide +kernel, by decide +kernel, by decide +kernel, by decide +kernel,
  optAll (by decide +kernel), by decide +kernel⟩⟩

theorem test_wit_frameBad : ∃ (p : Nat) (f : Frame) (s : State),
    (frameComes s p f) ∧ (f.crc ≠ f.crc16 (s.gen.phy p == 2)) ∧ ((s.m.chan p f.on).opened = []) ∧ ((s.m.port p).crcFails + 1 ≤ s.m.reg s.gen (portKey p 0x0F)) :=
  ⟨0, { frm [((pk (hh 0x22 0 1 0)).flit 1 0 0 5 none).pack] 2 with crc := 0 }, live, by decide +kernel⟩

theorem test_wit_nakRepeat : ∃ (p : Nat) (c : Nat) (d : Nat) (s : State),
    (hasChan s p c) ∧ ((s.m.chan p c).discarding = true) ∧ (s.m.deadline (.nak p c) = some d) :=
  ⟨0, 5, 327710000, (fun q : State => (⟨q.gen, due (.nak 0 5) 327710000 q.m, q.pending⟩ : State)) (live fun m => m.updC 0 5 fun x => { x with discarding := true }), by decide +kernel⟩

theorem test_wit_releaseStage : ∃ (p : Nat) (c : Nat) (v : Nat) (w : WireFlit) (s : State),
    (hasChan s p c) ∧ ((s.m.chan p c).opened = []) ∧ (((vcHeads (s.m.chan p c)).find? fun h => zRoom s.gen s.m p c h.1 (wfHdr h.2).flits && gapOk s.m (s.m.chan p c) (wfHdr h.2).flits) = some (v, w)) :=
  ⟨0, 0, 0, ((pk (hh 0x22 0 1 0)).flit 1 0 0 5 none).pack, live fun m => m.updC 0 0 fun x => { x with rxbuf := [(false, (((pk (hh 0x22 0 1 0)).flit 1 0 0 5 none).pack))] }, by decide +kernel⟩

theorem test_wit_releaseStageTwo : ∃ (p : Nat) (c : Nat) (v : Nat) (w : WireFlit) (s : State),
    (hasChan s p c) ∧ ((s.m.chan p c).opened = []) ∧ (((vcHeads (s.m.chan p c)).find? fun h => zRoom s.gen s.m p c h.1 (wfHdr h.2).flits && gapOk s.m (s.m.chan p c) (wfHdr h.2).flits) = some (v, w)) :=
  ⟨0, 0, 6, ((pk { hh 0x22 3 1 0x21 with len := 64 } [7]).flit 2 0 6 5 none).pack, live fun m => m.updC 0 0 fun x => { x with rxbuf := [(false, (((pk { hh 0x22 3 1 0x21 with len := 64 } [7]).flit 2 0 6 5 none).pack)), (true, ((pk { hh 0x22 3 1 0x21 with len := 64 } [7]).flit 2 1 6 6 none).pack)] }, by decide +kernel⟩

theorem test_wit_c0Release : ∃ (p : Nat) (c : Nat) (t : Nat) (w : WireFlit) (rest : List (Nat × WireFlit)) (s : State),
    (hasChan s p c) ∧ ((s.m.chan p c).c0q = (t, w) :: rest) :=
  ⟨0, 3, 10000, ((pk (hh 0x22 3 0 0x21)).flit 1 0 12 5 none).pack, [], live fun m => m.updC 0 3 fun x => { x with c0q := [(10000, (((pk (hh 0x22 3 0 0x21)).flit 1 0 12 5 none).pack))] }, by decide +kernel⟩

theorem test_wit_c0ReleaseLate : ∃ (p : Nat) (c : Nat) (t : Nat) (w : WireFlit) (rest : List (Nat × WireFlit)) (s : State),
    (hasChan s p c) ∧ ((s.m.chan p c).c0q = (t, w) :: rest) :=
  ⟨0, 3, 9999, ((pk (hh 0x22 3 0 0x21)).flit 1 0 12 5 none).pack, [], live fun m => m.updC 0 3 fun x => { x with c0q := [(9999, (((pk (hh 0x22 3 0 0x21)).flit 1 0 12 5 none).pack))] }, by decide +kernel⟩

theorem test_wit_detectTimeout : ∃ (p : Nat) (d : Nat) (s : State),
    (portThere s p) ∧ ((s.m.port p).link = .detect) ∧ (s.m.deadline (.detect p) = some d) :=
  ⟨0, 327710000, (fun q : State => (⟨q.gen, due (.detect 0) 327710000 q.m, q.pending⟩ : State)) (live fun m => m.updP 0 fun x => { x with link := .detect, trained := 0 }), by decide +kernel⟩

theorem test_wit_train : ∃ (p : Nat) (s : State),
    (portThere s p) ∧ ((s.m.port p).link = .detect) :=
  ⟨0, live fun m => m.updP 0 fun x => { x with link := .detect, trained := 0 }, by decide +kernel⟩

theorem test_wit_laneTrainDone : ∃ (p : Nat) (x : LaneResult) (s : State),
    (portThere s p) ∧ (s.gen.phy p = 0) ∧ ((s.m.port p).link = .laneTrain) ∧ ((s.m.port p).heard = none) :=
  ⟨0, ⟨[[], [], [1, 2, 3], [4, 5]], 5, 10, 20⟩, live fun m => m.updP 0 fun x => { x with link := .laneTrain, trained := 0 }, by decide +kernel⟩

theorem test_wit_laneTrainDoneFail : ∃ (p : Nat) (x : LaneResult) (s : State),
    (portThere s p) ∧ (s.gen.phy p = 0) ∧ ((s.m.port p).link = .laneTrain) ∧ ((s.m.port p).heard = none) :=
  ⟨0, ⟨[[0, 1, 2], [0, 1, 2], [0, 1, 2], [0, 1, 2]], 63, 10, 20⟩, live fun m => m.updP 0 fun x => { x with link := .laneTrain, trained := 0 }, by decide +kernel⟩

theorem test_wit_paramUp : ∃ (p : Nat) (x : ParamMsg) (s : State),
    (portThere s p) ∧ ((s.m.port p).link = .param) ∧ (paramFault s.gen s.m p x = none) :=
  ⟨0, ⟨2, 1, 0, 0x302, false, true, ⟨false, false, false, 0xFFFF, 0xFF⟩⟩, live fun m => m.updP 0 fun x => { x with link := .param, trained := 0, found := 21 }, by decide +kernel⟩

theorem test_wit_paramUpUp : ∃ (p : Nat) (x : ParamMsg) (s : State),
    (portThere s p) ∧ ((s.m.port p).link = .param) ∧ (paramFault s.gen s.m p x = none) :=
  ⟨0, ⟨2, 1, 3, 0x302, false, true, ⟨true, false, false, 2, 0⟩⟩, live fun m => m.updP 0 fun x => { x with link := .param, trained := 0, found := 21 }, by decide +kernel⟩

theorem test_wit_paramMismatch : ∃ (p : Nat) (c : Nat) (x : ParamMsg) (s : State),
    (portThere s p) ∧ ((s.m.port p).link = .param) ∧ (paramFault s.gen s.m p x = some c) :=
  ⟨0, 4, ⟨1, 1, 0, 0x302, false, true, ⟨false, false, false, 0xFFFF, 0xFF⟩⟩, live fun m => m.updP 0 fun x => { x with link := .param, trained := 0, found := 21 }, by decide +kernel⟩

theorem test_wit_paramMismatchLr : ∃ (p : Nat) (c : Nat) (x : ParamMsg) (s : State),
    (portThere s p) ∧ ((s.m.port p).link = .param) ∧ (paramFault s.gen s.m p x = some c) :=
  ⟨0, 3, ⟨2, 2, 0, 0x302, false, true, ⟨false, false, false, 0xFFFF, 0xFF⟩⟩, live fun m => m.updP 0 fun x => { x with link := .param, trained := 0, found := 21 }, by decide +kernel⟩

theorem test_wit_paramRepeat : ∃ (p : Nat) (d : Nat) (s : State),
    (portThere s p) ∧ ((s.m.port p).link = .mismatch) ∧ (s.m.deadline (.mismatch p) = some d) :=
  ⟨0, 327710000, (fun q : State => (⟨q.gen, due (.mismatch 0) 327710000 q.m, q.pending⟩ : State)) (live fun m => m.updP 0 fun x => { x with link := .mismatch, trained := 0 }), by decide +kernel⟩

theorem test_wit_retrainReq : ∃ (p : Nat) (s : State),
    (portThere s p) ∧ ((s.m.port p).link = .up) :=
  ⟨0, live, by decide +kernel⟩

theorem test_wit_retrain : ∃ (p : Nat) (s : State),
    (portThere s p) ∧ (((s.m.port p).link = .up ∨ (s.m.port p).link = .failed)) :=
  ⟨0, live, by decide +kernel⟩

theorem test_wit_retrainFailed : ∃ (p : Nat) (s : State),
    (portThere s p) ∧ (((s.m.port p).link = .up ∨ (s.m.port p).link = .failed)) :=
  ⟨0, live fun m => m.updP 0 fun x => { x with link := .failed, trained := 0 }, by decide +kernel⟩

theorem test_wit_linkDown : ∃ (p : Nat) (s : State),
    (portThere s p) ∧ ((s.m.port p).link ≠ .down) :=
  ⟨0, live fun m => m.updC 0 5 fun x => { x with rxbuf := [(false, 5)], opened := [(0, 2, 1)], replay := [(3, false, 6)] }, by decide +kernel⟩

theorem test_wit_disable : ∃ (p : Nat) (s : State),
    (portThere s p) ∧ ((s.m.port p).link ≠ .down) :=
  ⟨0, live fun m => m.updC 0 5 fun x => { x with rxbuf := [(false, 5)], txq := [(3, false, 6)] }, by decide +kernel⟩

theorem test_wit_enable : ∃ (p : Nat) (s : State),
    (portThere s p) ∧ (((s.m.port p).link = .down ∨ (s.m.port p).link = .failed)) :=
  ⟨0, live fun m => m.updP 0 fun x => { x with link := .down, trained := 0 }, by decide +kernel⟩

theorem test_wit_enableFailed : ∃ (p : Nat) (s : State),
    (portThere s p) ∧ (((s.m.port p).link = .down ∨ (s.m.port p).link = .failed)) :=
  ⟨0, live fun m => m.updP 0 fun x => { x with link := .failed, trained := 0 }, by decide +kernel⟩

theorem test_wit_sidebandRepeat : ∃ (p : Nat) (k : Nat) (t : Nat) (b : List Byte) (s : State),
    (portThere s p) ∧ ((s.m.port p).sideband[k]? = some (t, b)) :=
  ⟨0, 1, 327710000, [1, 2, 3], live fun m => m.updP 0 fun x => { x with sideband := [(5, [9]), (327710000, [1, 2, 3])] }, by decide +kernel⟩

theorem test_wit_sidebandRepeatLr : ∃ (p : Nat) (k : Nat) (t : Nat) (b : List Byte) (s : State),
    (portThere s p) ∧ ((s.m.port p).sideband[k]? = some (t, b)) :=
  ⟨0, 1, 327710000, [1, 2, 3], live (fun m => m.updP 0 fun x => { x with sideband := [(5, [9]), (327710000, [1, 2, 3])], sbOut := [8] }) gLr, by decide +kernel⟩

theorem test_wit_serdesUpChange : ∃ (p : Nat) (b : Nat) (up : Bool) (s : State),
    (portThere s p) ∧ (b < 6) ∧ (s.gen.phy p = 2) ∧ ((s.m.port p).link = .up) :=
  ⟨0, 3, false, live (fun m => m.updP 0 fun x => { x with serdes := 63 }) gLr, by decide +kernel⟩

theorem test_wit_serdesUpChangeUp : ∃ (p : Nat) (b : Nat) (up : Bool) (s : State),
    (portThere s p) ∧ (b < 6) ∧ (s.gen.phy p = 2) ∧ ((s.m.port p).link = .up) :=
  ⟨0, 5, true, live (fun m => m.updP 0 fun x => { x with serdes := 1, trained := 1, found := 1 }) gLr, by decide +kernel⟩

theorem test_wit_linkIdleThreshold : ∃ (p : Nat) (code : Nat) (d : Nat) (s : State),
    (portThere s p) ∧ (s.m.deadline (.linkIdle p code) = some d) ∧ (mayLower s.gen s.m p code = true) ∧ ((s.m.port p).ask < code) ∧ (((s.m.port p).farAsk = 0 → (s.m.port p).pwr = 0)) :=
  ⟨0, 3, 327710000, (fun q : State => (⟨q.gen, due (.linkIdle 0 3) 327710000 q.m, q.pending⟩ : State)) (live fun m => m.updP 0 fun x => { x with farAsk := 3 }), by decide +kernel⟩

theorem test_wit_linkIdleThresholdOne : ∃ (p : Nat) (code : Nat) (d : Nat) (s : State),
    (portThere s p) ∧ (s.m.deadline (.linkIdle p code) = some d) ∧ (mayLower s.gen s.m p code = true) ∧ ((s.m.port p).ask < code) ∧ (((s.m.port p).farAsk = 0 → (s.m.port p).pwr = 0)) :=
  ⟨0, 1, 327710000, (fun q : State => (⟨q.gen, due (.linkIdle 0 1) 327710000 q.m, q.pending⟩ : State)) (live id), by decide +kernel⟩

theorem test_wit_pwrReq : ∃ (p : Nat) (code : Nat) (s : State),
    (portThere s p) ∧ (1 ≤ code) ∧ (code ≤ 3) ∧ ((s.m.port p).link = .up) ∧ ((s.m.port p).ask ≠ 0) ∧ ((s.m.port p).exiting = false) :=
  ⟨0, 3, live fun m => m.updP 0 fun x => { x with ask := 2 }, by decide +kernel⟩

theorem test_wit_linkPwrExitDone : ∃ (p : Nat) (d : Nat) (s : State),
    (portThere s p) ∧ ((s.m.port p).exiting = true) ∧ (s.m.deadline (.linkExit p) = some d) :=
  ⟨0, 327710000, (fun q : State => (⟨q.gen, due (.linkExit 0) 327710000 q.m, q.pending⟩ : State)) (live fun m => m.updP 0 fun x => { x with ask := 3, farAsk := 3, pwr := 3, exiting := true }), by decide +kernel⟩

theorem test_wit_bridgeFarReset : ∃ (d : Nat) (s : State),
    (domThere s d) ∧ (d ≠ 0) ∧ ((s.m.dom d).inReset = false) ∧ (portsIn s.gen d = []) :=
  ⟨2, live, by decide +kernel⟩

theorem test_wit_bridgeReopen : ∃ (d : Nat) (s : State),
    (domThere s d) ∧ ((s.m.dom d).inReset = true) ∧ ((s.m.dom d).st ≠ .p3) :=
  ⟨2, live fun m => m.updD 2 fun x => { x with inReset := true, dead := true }, by decide +kernel⟩

theorem test_wit_bridgeReopenLinks : ∃ (d : Nat) (s : State),
    (domThere s d) ∧ ((s.m.dom d).inReset = true) ∧ ((s.m.dom d).st ≠ .p3) :=
  ⟨3, live fun m => m.updD 3 fun x => { x with inReset := true, hinted := true, st := .p2, goal := 2 }, by decide +kernel⟩

theorem test_wit_bridgeDead : ∃ (d : Nat) (t : Nat) (s : State),
    (domThere s d) ∧ (d ≠ 0) ∧ (d ≠ s.gen.niDom 0) ∧ ((s.m.dom d).dead = false) ∧ (((s.m.dom d).st = .p0 ∧ (s.m.dom d).inReset = true ∧ s.m.deadline (.dead d) = some t ∨ ((s.m.dom d).st = .p0 ∧ (s.m.dom d).inReset = false ∨ (s.m.dom d).st = .closing ∨ (s.m.dom d).st = .waking) ∧ t = s.m.now + deadUnits s.gen s.m)) :=
  ⟨1, (live).m.now + deadUnits (live).gen (live).m, live, by decide +kernel⟩

theorem test_wit_bridgeDeadLink : ∃ (d : Nat) (t : Nat) (s : State),
    (domThere s d) ∧ (d ≠ 0) ∧ (d ≠ s.gen.niDom 0) ∧ ((s.m.dom d).dead = false) ∧ (((s.m.dom d).st = .p0 ∧ (s.m.dom d).inReset = true ∧ s.m.deadline (.dead d) = some t ∨ ((s.m.dom d).st = .p0 ∧ (s.m.dom d).inReset = false ∨ (s.m.dom d).st = .closing ∨ (s.m.dom d).st = .waking) ∧ t = s.m.now + deadUnits s.gen s.m)) :=
  ⟨3, (live).m.now + deadUnits (live).gen (live).m, live, by decide +kernel⟩

theorem test_wit_bridgeDeadReset : ∃ (d : Nat) (t : Nat) (s : State),
    (domThere s d) ∧ (d ≠ 0) ∧ (d ≠ s.gen.niDom 0) ∧ ((s.m.dom d).dead = false) ∧ (((s.m.dom d).st = .p0 ∧ (s.m.dom d).inReset = true ∧ s.m.deadline (.dead d) = some t ∨ ((s.m.dom d).st = .p0 ∧ (s.m.dom d).inReset = false ∨ (s.m.dom d).st = .closing ∨ (s.m.dom d).st = .waking) ∧ t = s.m.now + deadUnits s.gen s.m)) :=
  ⟨1, 327710000, live (due (.dead 1) 327710000 <| ·.updD 1 fun x => { x with inReset := true }), by decide +kernel⟩

theorem test_wit_bridgeIsolate : ∃ (s : State),
    (s.gen.hasDom 0 = true) ∧ (s.m.sh.isolated = false) :=
  ⟨live, by decide +kernel⟩

theorem test_wit_pwrAckWake : ∃ (d : Nat) (code : Nat) (s : State),
    (domThere s d) ∧ (d ≠ 0) ∧ (code < 4) ∧ (s.gen.domKind d ≠ 3) ∧ ((s.m.dom d).st = .waking) ∧ ((s.m.dom d).ack ≠ (s.m.dom d).req) ∧ (code = (s.m.dom d).req) ∧ (code ≠ 0) :=
  ⟨1, 2, live fun m => m.updD 1 fun x => { x with st := .waking, req := 2, ack := 0 }, by decide +kernel⟩

theorem test_wit_pwrAckClose : ∃ (d : Nat) (code : Nat) (s : State),
    (domThere s d) ∧ (d ≠ 0) ∧ (code < 4) ∧ (s.gen.domKind d ≠ 3) ∧ ((s.m.dom d).st = .closing) ∧ ((s.m.dom d).goal = 2) ∧ ((s.m.dom d).hinted = false) ∧ ((s.m.dom d).ack ≠ (s.m.dom d).req) ∧ (code = (s.m.dom d).req) :=
  ⟨1, 1, live fun m => m.updD 1 fun x => { x with st := .closing, goal := 2, req := 1, ack := 0 }, by decide +kernel⟩

theorem test_wit_pwrAckOff : ∃ (d : Nat) (code : Nat) (s : State),
    (domThere s d) ∧ (d ≠ 0) ∧ (code < 4) ∧ (s.gen.domKind d ≠ 3) ∧ ((s.m.dom d).st = .closing) ∧ ((s.m.dom d).goal = 3) ∧ ((s.m.dom d).hinted = false) ∧ ((s.m.dom d).ack ≠ (s.m.dom d).req) ∧ (code = (s.m.dom d).req) ∧ (portsIn s.gen d = []) :=
  ⟨1, 2, live fun m => m.updD 1 fun x => { x with st := .closing, goal := 3, req := 2, ack := 0 }, by decide +kernel⟩

theorem test_wit_pwrAckTimeout : ∃ (d : Nat) (t : Nat) (s : State),
    (domThere s d) ∧ (d ≠ 0) ∧ (d ≠ s.gen.niDom 0) ∧ ((s.m.dom d).ack ≠ (s.m.dom d).req) ∧ ((s.m.dom d).dead = false) ∧ (s.m.deadline (.ack d) = some t) :=
  ⟨1, 327710000, (fun q : State => (⟨q.gen, due (.ack 1) 327710000 q.m, q.pending⟩ : State)) (live fun m => m.updD 1 fun x => { x with st := .closing, goal := 2, req := 1, ack := 0 }), by decide +kernel⟩

theorem test_wit_domainIdle : ∃ (d : Nat) (s : State),
    (domThere s d) ∧ ((s.m.dom d).st = .p0) :=
  ⟨2, live, by decide +kernel⟩

theorem test_wit_domainIdleLater : ∃ (d : Nat) (s : State),
    (domThere s d) ∧ ((s.m.dom d).st = .p0) :=
  ⟨2, live fun m => m.updD 2 fun x => { x with woke := 327679999 }, by decide +kernel⟩

theorem test_wit_deeper : ∃ (d : Nat) (k : Nat) (s : State),
    (domThere s d) ∧ ((s.m.dom d).st = .p1) ∧ (deepest s.gen s.m d 1 = some k) :=
  ⟨2, 3, live fun m => (m.updD 2 fun x => { x with st := .p1 }).updT fun t => { t with clk := 2 ^ 40 }, by decide +kernel⟩

theorem test_wit_mayEnter : ∃ (g : Gen) (m : Mach) (d : Nat) (cur : Nat) (st : Nat),
    (deepest g m d cur = some st) :=
  ⟨g0, (liveOf g0).updT fun t => { t with clk := 2 ^ 40 }, 2, 0, 3, by decide +kernel⟩

theorem test_wit_closeDrainedP1 : ∃ (d : Nat) (s : State),
    (domThere s d) ∧ ((s.m.dom d).st = .closing) ∧ ((s.m.dom d).req = 0) ∧ ((s.m.dom d).goal = 1) ∧ (domainHolds s.m s.gen d = false) ∧ (logsCrossed s.gen s.m d = true) :=
  ⟨1, live fun m => m.updD 1 fun x => { x with st := .closing, goal := 1 }, by decide +kernel⟩

theorem test_wit_closeDrainedP2 : ∃ (d : Nat) (s : State),
    (domThere s d) ∧ ((s.m.dom d).st = .closing) ∧ ((s.m.dom d).req = 0) ∧ ((s.m.dom d).ack = 0) ∧ ((s.m.dom d).goal = 2) ∧ (domainHolds s.m s.gen d = false) ∧ (logsCrossed s.gen s.m d = true) :=
  ⟨1, live fun m => m.updD 1 fun x => { x with st := .closing, goal := 2 }, by decide +kernel⟩

theorem test_wit_closeTimeout : ∃ (d : Nat) (t : Nat) (s : State),
    (domThere s d) ∧ ((s.m.dom d).st = .closing) ∧ ((s.m.dom d).req = 0) ∧ (s.m.deadline (.close d) = some t) :=
  ⟨2, 327710000, (fun q : State => (⟨q.gen, due (.close 2) 327710000 q.m, q.pending⟩ : State)) (live fun m => m.updD 2 fun x => { x with st := .closing, goal := 1, hinted := true }), by decide +kernel⟩

theorem test_wit_afterAbort : ∃ (g : Gen) (m : Mach) (d : Nat) (cur : Nat) (k : Nat),
    (deepest g m d cur = some k) :=
  ⟨g0, (liveOf g0).updT fun t => { t with clk := 2 ^ 40 }, 2, 0, 3, by decide +kernel⟩

theorem test_wit_wakeSequence : ∃ (d : Nat) (r : Nat) (t : Nat) (dest : BitVec 16) (vn : BitVec 3) (rest : List (Nat × Nat × BitVec 16 × BitVec 3 × Nat)) (s : State),
    (s.m.sh.hints = (d, r, dest, vn, t) :: rest) ∧ (s.m.domains.has d = true) ∧ (d ≠ 0) ∧ ((s.m.dom d).st = .p1) ∧ (leavingP3 s.gen s.m = 0) :=
  ⟨2, 17, 3, 0xA2, 0, [(1, 0, 5, 1, 4)], live fun m => (m.updD 2 fun x => { x with st := .p1, goal := 1 }).updSh fun x => { x with hints := [(2, 17, 0xA2, 0, 3), (1, 0, 5, 1, 4)] }, by decide +kernel⟩

theorem test_wit_domainWakeDone : ∃ (d : Nat) (t : Nat) (s : State),
    (domThere s d) ∧ ((s.m.dom d).st = .waking) ∧ ((s.m.dom d).req = 0) ∧ ((s.m.dom d).ack = 0) ∧ ((s.m.dom d).inReset = false) ∧ (s.m.sh.waitq = []) ∧ (s.m.deadline (.wake d) = some t) :=
  ⟨2, 327710000, (fun q : State => (⟨q.gen, due (.wake 2) 327710000 q.m, q.pending⟩ : State)) (live fun m => m.updD 2 fun x => { x with st := .waking, goal := 0, hinted := true }), by decide +kernel⟩

theorem test_wit_wakeHold : ∃ (d : Nat) (t : Nat) (s : State),
    (domThere s d) ∧ (s.m.deadline (.wakeHold d) = some t) :=
  ⟨2, 327710000, (fun q : State => (⟨q.gen, due (.wakeHold 2) 327710000 q.m, q.pending⟩ : State)) (live fun m => m.updD 2 fun x => { x with hold := true }), by decide +kernel⟩

theorem test_wit_wake : ∃ (d : Nat) (p : Pkt) (s : State),
    (atShuttle s p) ∧ (p.hdr.c = 0xF2) ∧ (fidLocal p.hdr.dest ≠ 0x7F) ∧ (p.hdr.csfFld 239 239 = 0) ∧ (p.hdr.csfFld 246 240 = d) ∧ (d ≠ 0) ∧ (domThere s d) ∧ (s.gen.domKind d ≠ 3) ∧ ((s.m.dom d).st = .p1) :=
  ⟨2, pk { hh 0 5 1 0xF2 with csf := ((Hdr.zero.setCsf 246 240 2).setCsf 238 223 7).csf }, live fun m => m.updD 2 fun x => { x with st := .p1, goal := 1 }, by decide +kernel⟩

theorem test_wit_wakeNoHold : ∃ (d : Nat) (p : Pkt) (s : State),
    (atShuttle s p) ∧ (p.hdr.c = 0xF2) ∧ (fidLocal p.hdr.dest ≠ 0x7F) ∧ (p.hdr.csfFld 239 239 = 0) ∧ (p.hdr.csfFld 246 240 = d) ∧ (d ≠ 0) ∧ (domThere s d) ∧ (s.gen.domKind d ≠ 3) ∧ ((s.m.dom d).st = .p1) :=
  ⟨1, pk { hh 0 5 1 0xF2 with csf := (Hdr.zero.setCsf 246 240 1).csf }, live fun m => m.updD 1 fun x => { x with st := .p1, goal := 1 }, by decide +kernel⟩

theorem test_wit_wakeLink : ∃ (d : Nat) (q : Nat) (p : Pkt) (s : State),
    (atShuttle s p) ∧ (p.hdr.c = 0xF2) ∧ (fidLocal p.hdr.dest ≠ 0x7F) ∧ (p.hdr.csfFld 239 239 = 0) ∧ (p.hdr.csfFld 246 240 = d) ∧ (d ≠ 0) ∧ (domThere s d) ∧ (s.gen.domKind d = 3) ∧ (portsIn s.gen d = [q]) ∧ (s.m.ports.has q = true) ∧ ((s.m.port q).pwr ≠ 0) ∧ ((s.m.port q).exiting = false) :=
  ⟨3, 0, pk { hh 0 5 1 0xF2 with csf := ((Hdr.zero.setCsf 246 240 3).setCsf 238 223 7).csf }, live fun m => (m.updD 3 fun x => { x with st := .p2, req := 1, ack := 1 }).updP 0 fun x => { x with pwr := 2, ask := 2, farAsk := 2 }, by decide +kernel⟩

theorem test_wit_wakeSend : ∃ (s : State),
    (s.m.nis.has 0 = true) ∧ ((s.m.ni 0).fs = .running) ∧ (s.m.sh.isolated = false) :=
  ⟨live, by decide +kernel⟩

theorem test_wit_hoop : ∃ (t : Nat) (s : State),
    (s.m.nis.has 0 = true) ∧ (s.m.sh.hoop = none) ∧ (s.m.ft < t % 2 ^ 80) :=
  ⟨327680001, live fun m => (m.setReg (key 0x2100 2) 0).setReg (hoopKey 2) 65535, by decide +kernel⟩

theorem test_wit_hoopReceive : ∃ (p : Pkt) (s : State),
    (atShuttle s p) ∧ (p.hdr.c = 0xF3) ∧ (fidLocal p.hdr.dest ≠ 0x7F) ∧ ((p.hdr.csfFld 242 242 = 1 ∨ p.hdr.csfFld 246 243 = s.m.package s.gen)) ∧ (s.m.sh.hoop = none) ∧ (s.m.ft < p.hdr.csfFld 239 160) :=
  ⟨pk { hh 0 5 1 0xF3 with csf := ((((Hdr.zero.setCsf 246 243 1).setCsf 239 160 (2 ^ 79)).setCsf 159 144 77)).csf }, live, by decide +kernel⟩

theorem test_wit_hoopReceiveAll : ∃ (p : Pkt) (s : State),
    (atShuttle s p) ∧ (p.hdr.c = 0xF3) ∧ (fidLocal p.hdr.dest ≠ 0x7F) ∧ ((p.hdr.csfFld 242 242 = 1 ∨ p.hdr.csfFld 246 243 = s.m.package s.gen)) ∧ (s.m.sh.hoop = none) ∧ (s.m.ft < p.hdr.csfFld 239 160) :=
  ⟨pk { hh 0 5 1 0xF3 with csf := (((((Hdr.zero.setCsf 246 243 9).setCsf 242 242 1).setCsf 239 160 (2 ^ 79)).setCsf 159 144 77)).csf }, live, by decide +kernel⟩

theorem test_wit_hoopForeign : ∃ (p : Pkt) (s : State),
    (atShuttle s p) ∧ (p.hdr.c = 0xF3) ∧ (p.hdr.csfFld 242 242 = 0) ∧ (p.hdr.csfFld 246 243 ≠ s.m.package s.gen) :=
  ⟨pk { hh 0 5 1 0xF3 with csf := (((Hdr.zero.setCsf 246 243 9).setCsf 239 160 (2 ^ 79)).setCsf 159 144 77).csf }, live, by decide +kernel⟩

theorem test_wit_hoopSnapshot : ∃ (t : Nat) (id : Nat) (s : State),
    (plainGen s.gen) ∧ (s.m.sh.hoop = some (t, id)) :=
  ⟨327680001, 5, live fun m => ((m.setReg (key 0xA111 31) 9).setReg (key 0xA205 63) 8).updSh fun x => { x with hoop := some (327680001, 5) }, by decide +kernel⟩

theorem test_wit_hoopSnapshotFree : ∃ (t : Nat) (id : Nat) (s : State),
    (plainGen s.gen) ∧ (s.m.sh.hoop = some (t, id)) :=
  ⟨1, 5, live fun m => ((((m.setReg (key 0xA111 31) 9).setReg (key 0x3622 5) 8).setReg (domKey 3 12) 4).updT fun t => { t with st := .free }).updSh fun x => { x with hoop := some (1, 5) }, by decide +kernel⟩

theorem test_wit_mgRead : ∃ (p : Pkt) (s : State) (f : DstFlow) (o : Obj),
    (mgAccepted s p f) ∧ (p.hdr.c = 0xA0) ∧ (mgNames s p o) :=
  ⟨mg 0xA0 (key 0x1001 1), mgAt (mg 0xA0 (key 0x1001 1)), dflow ((mg 0xA0 (key 0x1001 1))).hdr.flow, ob (key 0x1001 1), by decide +kernel⟩

theorem test_wit_mgInfo : ∃ (p : Pkt) (s : State) (f : DstFlow) (o : Obj),
    (mgAccepted s p f) ∧ (p.hdr.c = 0xA2) ∧ (mgNames s p o) :=
  ⟨mg 0xA2 (key 0x3000 6), mgAt (mg 0xA2 (key 0x3000 6)), dflow ((mg 0xA2 (key 0x3000 6))).hdr.flow, ob (key 0x3000 6), by decide +kernel⟩

theorem test_wit_mgWrite : ∃ (p : Pkt) (s : State) (f : DstFlow) (o : Obj),
    (mgAccepted s p f) ∧ (p.hdr.c = 0xA1) ∧ (mgNames s p o) ∧ (let k := addrKey p.hdr.a; (plainIndex (k / 256)) ∧ (o.acc = .rw) ∧ (p.bytes.length = o.ty.size) ∧ (valueOk s.gen s.m k o (ofBytes p.bytes) = true)) :=
  ⟨mg 0xA1 (key 0x3000 6) (toBytes 5000 4), mgAt (mg 0xA1 (key 0x3000 6) (toBytes 5000 4)), dflow ((mg 0xA1 (key 0x3000 6) (toBytes 5000 4))).hdr.flow, ob (key 0x3000 6), ⟨by decide +kernel, by decide +kernel, by decide +kernel, by unfold plainIndex; decide +kernel, by decide +kernel, by decide +kernel, by decide +kernel⟩⟩

theorem test_wit_mgReadOnly : ∃ (p : Pkt) (s : State) (f : DstFlow) (o : Obj),
    (mgAccepted s p f) ∧ (p.hdr.c = 0xA1) ∧ (mgNames s p o) ∧ ((o.acc = .ro ∨ o.acc = .const)) :=
  ⟨mg 0xA1 (key 0x3000 3) (toBytes 5 10), mgAt (mg 0xA1 (key 0x3000 3) (toBytes 5 10)), dflow ((mg 0xA1 (key 0x3000 3) (toBytes 5 10))).hdr.flow, ob (key 0x3000 3), by decide +kernel⟩

theorem test_wit_mgReserved : ∃ (p : Pkt) (s : State) (f : DstFlow),
    (mgAccepted s p f) ∧ (0xA4 ≤ p.hdr.c) ∧ (p.hdr.c ≤ 0xAF) :=
  ⟨mg 0xAF 0, mgAt (mg 0xAF 0), dflow ((mg 0xAF 0)).hdr.flow, by decide +kernel⟩

theorem test_wit_mgReservedLow : ∃ (p : Pkt) (s : State) (f : DstFlow),
    (mgAccepted s p f) ∧ (0xA4 ≤ p.hdr.c) ∧ (p.hdr.c ≤ 0xAF) :=
  ⟨mg 0xA4 0, mgAt (mg 0xA4 0), dflow ((mg 0xA4 0)).hdr.flow, by decide +kernel⟩

theorem test_wit_mgMalformed : ∃ (p : Pkt) (s : State) (f : DstFlow),
    (mgAccepted s p f) ∧ (p.hdr.c = 0xA0) ∧ (mgMalformed p.hdr = true) :=
  ⟨(let q := mg 0xA0 (key 0x1001 1); ({ q with hdr := { q.hdr with addr := q.hdr.addr + 1 } } : Pkt).seal), mgAt ((let q := mg 0xA0 (key 0x1001 1); ({ q with hdr := { q.hdr with addr := q.hdr.addr + 1 } } : Pkt).seal)), dflow (((let q := mg 0xA0 (key 0x1001 1); ({ q with hdr := { q.hdr with addr := q.hdr.addr + 1 } } : Pkt).seal))).hdr.flow, by decide +kernel⟩

theorem test_wit_mgBusy : ∃ (p : Pkt) (s : State) (f : DstFlow),
    (inOrder s 0 p f) ∧ (s.m.allStopped s.gen (unitsOf s.gen 1) = false) ∧ (p.hdr.c = 0xA0) ∧ (16 ≤ inBandWaiting s.m) :=
  ⟨mg 0xA0 (key 0x1001 1), mgAt (mg 0xA0 (key 0x1001 1)) (·.updSh fun x => { x with waitq := List.replicate 16 (.inBand (mg 0xA0 (key 0x1001 1))) }), dflow ((mg 0xA0 (key 0x1001 1))).hdr.flow, by decide +kernel⟩

theorem test_wit_mgVpSquash : ∃ (p : Pkt) (s : State) (f : DstFlow),
    (mgAccepted s p f) ∧ (p.hdr.c = 0xA3) ∧ (mgMalformed p.hdr = false) ∧ (fidLocal p.hdr.src = 0) :=
  ⟨pk { hh 0 5 1 0xA3 with src := 0x100, csf := ((Hdr.zero.setCsf 239 224 0x105).setCsf 223 214 9).csf }, mgAt (pk { hh 0 5 1 0xA3 with src := 0x100, csf := ((Hdr.zero.setCsf 239 224 0x105).setCsf 223 214 9).csf }) (·.updE 1 fun e => { e with ctxs := [(2, cx [] fun x => { x with ownerVport := 9 }), (3, cx []), (7, cx [] fun x => { x with ownerVport := 9, st := .ending })] }), dflow ((pk { hh 0 5 1 0xA3 with src := 0x100, csf := ((Hdr.zero.setCsf 239 224 0x105).setCsf 223 214 9).csf })).hdr.flow, by decide +kernel⟩

theorem test_wit_mgStopped : ∃ (instr : Nat → Pkt → Instr) (p : Pkt) (s : State),
    ((instr = .mgRead ∨ instr = .mgWrite ∨ instr = .mgInfo ∨ instr = .mgVpSquash ∨ instr = .mgReservedCmd)) ∧ (isManagement p.hdr.c = true) ∧ (s.m.allStopped s.gen (unitsOf s.gen 1) = true) :=
  ⟨Instr.mgRead, mg 0xA0 (key 0x1001 1), mgAt (mg 0xA0 (key 0x1001 1)) fun m => { m with routers := m.routers.map fun (r, x) => (r, { x with fs := .stopped }) }, ⟨Or.inl rfl, by decide +kernel, by decide +kernel⟩⟩

theorem test_wit_mgDenied : ∃ (p : Pkt) (s : State) (f : DstFlow),
    (mgAccepted s p f) ∧ (p.hdr.c = 0xA3) ∧ (mgMalformed p.hdr = false) ∧ (fidLocal p.hdr.src ≠ 0) :=
  ⟨pk { hh 0 5 1 0xA3 with src := 0x101, csf := ((Hdr.zero.setCsf 239 224 0x105).setCsf 223 214 9).csf }, mgAt (pk { hh 0 5 1 0xA3 with src := 0x101, csf := ((Hdr.zero.setCsf 239 224 0x105).setCsf 223 214 9).csf }), dflow ((pk { hh 0 5 1 0xA3 with src := 0x101, csf := ((Hdr.zero.setCsf 239 224 0x105).setCsf 223 214 9).csf })).hdr.flow, by decide +kernel⟩

theorem test_wit_mgmtRsp : ∃ (g : Gen) (m : Mach) (h : Hdr) (status : Nat) (mg : Nat) (ok : Nat) (fail : Nat) (sq : Nat) (bs : List Byte),
    (status < 16) ∧ (mg < 256) ∧ (ok < 1024) ∧ (fail < 1024) ∧ (sq < 2048) ∧ (bs.length ≤ 256) ∧ (isManagement h.c = true) :=
  ⟨g0, liveOf g0, (mg 0xA1 0).hdr, 15, 255, 1023, 1023, 2047, List.replicate 256 7, by decide +kernel⟩

theorem test_wit_broadcastAnswer : ∃ (b : Nat) (t : Nat) (x : Bcast) (s : State),
    (s.m.sh.bcast.get? b = some x) ∧ (s.m.nis.has 0 = true) ∧ (isManagement x.hdr.c = true) ∧ ((x.waiting = [] ∧ t = s.m.now ∨ x.waiting ≠ [] ∧ s.m.deadline (.bcast b) = some t)) :=
  ⟨6, 327710000, ⟨(mg 0xA1 0).hdr, 0, [2, 3], 4, 1⟩, (fun q : State => (⟨q.gen, due (.bcast 6) 327710000 q.m, q.pending⟩ : State)) (live (·.updSh fun y => { y with bcast := [(6, (⟨(mg 0xA1 0).hdr, 0, [2, 3], 4, 1⟩))], calls := [(0, .copy 6 2), (1, .copy 5 2), (2, .copy 6 3)] })), by decide +kernel⟩

theorem test_wit_broadcastAnswerAll : ∃ (b : Nat) (t : Nat) (x : Bcast) (s : State),
    (s.m.sh.bcast.get? b = some x) ∧ (s.m.nis.has 0 = true) ∧ (isManagement x.hdr.c = true) ∧ ((x.waiting = [] ∧ t = s.m.now ∨ x.waiting ≠ [] ∧ s.m.deadline (.bcast b) = some t)) :=
  ⟨6, 327680000, ⟨(mg 0xA1 0).hdr, 0, [], 6, 1⟩, live (·.updSh fun y => { y with bcast := [(6, (⟨(mg 0xA1 0).hdr, 0, [], 6, 1⟩))] }), by decide +kernel⟩

theorem test_wit_mgReqRead : ∃ (msg : List Byte) (q : MgReq) (o : Obj) (s : State),
    (mgReqAccepted s msg q) ∧ (q.op = 0xA0) ∧ ((q.target = 0xFFFF ∨ q.target.toNat = s.m.node s.gen)) ∧ (objOf s.gen (mgReqKey q) = some o) ∧ (mustWait s.gen s.m (mgReqKey q) = false) :=
  ⟨mgReqMsg ⟨0, 0xA0, 0xFFFF, 0x1001, 1, 0, []⟩, ⟨0, 0xA0, 0xFFFF, 0x1001, 1, 0, []⟩, ob (key 0x1001 1), live, by decide +kernel⟩

theorem test_wit_mgReqReadOwn : ∃ (msg : List Byte) (q : MgReq) (o : Obj) (s : State),
    (mgReqAccepted s msg q) ∧ (q.op = 0xA0) ∧ ((q.target = 0xFFFF ∨ q.target.toNat = s.m.node s.gen)) ∧ (objOf s.gen (mgReqKey q) = some o) ∧ (mustWait s.gen s.m (mgReqKey q) = false) :=
  ⟨mgReqMsg ⟨0, 0xA0, 1, 0x1001, 1, 0, []⟩, ⟨0, 0xA0, 1, 0x1001, 1, 0, []⟩, ob (key 0x1001 1), live, by decide +kernel⟩

theorem test_wit_mgReqForward : ∃ (msg : List Byte) (q : MgReq) (id : Nat) (s : State),
    (mgReqAccepted s msg q) ∧ ((q.op = 0xA0 ∨ q.op = 0xA2)) ∧ (q.target ≠ 0xFFFF) ∧ (q.target.toNat ≠ s.m.node s.gen) ∧ (s.m.nis.has 0 = true) ∧ ((s.m.ni 0).fs = .running) ∧ (s.m.sh.isolated = false) ∧ (s.m.sh.calls.lowestFree 0 4096 = some id) :=
  ⟨mgReqMsg ⟨0, 0xA2, 7, 0x1001, 1, 0, []⟩, ⟨0, 0xA2, 7, 0x1001, 1, 0, []⟩, 1, live (·.updSh fun x => { x with calls := [(0, .copy 5 2)] }), by decide +kernel⟩

theorem test_wit_mgReqBusy : ∃ (msg : List Byte) (q : MgReq) (s : State),
    (MgReq.ofBytes msg = some q) ∧ (mctpFor s q.iana) ∧ (4 ≤ outBandWaiting s.m) :=
  ⟨mgReqMsg ⟨0, 0xA0, 0xFFFF, 0x1001, 1, 0, []⟩, ⟨0, 0xA0, 0xFFFF, 0x1001, 1, 0, []⟩, live (·.updSh fun x => { x with waitq := List.replicate 4 (.outBand (⟨0, 0xA0, 0xFFFF, 0x1001, 1, 0, []⟩)) }), by decide +kernel⟩

theorem test_wit_mgForwardTimeout : ∃ (id : Nat) (d : Nat) (q : MgReq) (s : State),
    (s.m.sh.calls.get? id = some (.forward q)) ∧ (s.m.deadline (.forward id) = some d) :=
  ⟨4095, 327710000, ⟨0, 0xA0, 7, 0x1001, 1, 0, []⟩, (fun q : State => (⟨q.gen, due (.forward 4095) 327710000 q.m, q.pending⟩ : State)) (live (·.updSh fun x => { x with calls := [(4095, .forward (⟨0, 0xA0, 7, 0x1001, 1, 0, []⟩))] })), by decide +kernel⟩

theorem test_wit_message : ∃ (iana : Nat) (code : Nat) (body : List Byte),
    (iana < 2 ^ 32) ∧ (code < 256) :=
  ⟨0x12345678, 255, [1, 2], by decide +kernel⟩

theorem test_wit_setEndpointId : ∃ (eid : Nat) (s : State),
    (mctpUp s.gen s.m = true) ∧ (eid < 256) :=
  ⟨255, live, by decide +kernel⟩

theorem test_wit_entdaa : ∃ (s : State),
    (s.m.sh.porN = true) ∧ (2 ≤ s.m.reg s.gen (key 0x1200 1)) :=
  ⟨cold fun m => (m.updSh fun x => { x with porN := true }).setReg (key 0x1200 1) 2, by decide +kernel⟩

theorem test_wit_vendorSupport : ∃ (s : State),
    (mctpUp s.gen s.m = true) :=
  ⟨live, by decide +kernel⟩

theorem test_wit_foreignVendor : ∃ (u : List Byte) (v : List Byte) (w : List Byte) (s : State),
    ((∀ code x, vendorBody code (u ++ v ++ w) = some x → x.1 ≠ s.gen.vendorIana)) :=
  ⟨vendorMsg 1 1 [], [0, 0, 0, 0], List.replicate 8 0, live, fun code x h => by
  simp only [vendorBody] at h; split at h
  · cases h; decide +kernel
  · cases h⟩

theorem test_wit_refusedWrite : ∃ (index : Nat) (sub : Nat) (size : Nat) (value : Nat) (s : State),
    ((∃ c, c ≠ 0 ∧ Yields (.registerWrite index sub size value) s fun m => m.out.getLast? = some (.status c))) :=
  ⟨0x3000, 6, 4, 5, live, ⟨4, by decide, _, rfl, by decide +kernel, by decide +kernel, by decide +kernel⟩⟩

theorem test_wit_refusedObj : ∃ (g : Gen) (m : Mach) (k : Nat) (size : Nat) (v : Nat),
    ((writeObj g m k size v).2 ≠ 0) :=
  ⟨g0, liveOf g0, key 0x3000 6, 4, 5, by decide +kernel⟩

theorem test_wit_absentObj : ∃ (index : Nat) (sub : Nat) (s : State),
    (index < 65536) ∧ (sub < 256) ∧ (objOf s.gen (key index sub) = none) :=
  ⟨0xFFFF, 255, live, by decide +kernel⟩

theorem test_wit_absentCommand : (live.gen.isInit 0x21 = false ∨ 1024 ≤ 3) ∧ live.gen.isInit 0x21 = false ∧ live.gen.hasNi 9 = false ∧
live.gen.hasPort 5 = false ∧ live.gen.hasEngine 7 = false ∧ hasLog live.gen 9 = false ∧ 1024 ≤ 1024 := by decide +kernel

theorem test_wit_writeOrder : ∃ (index : Nat) (sub : Nat) (o : Obj) (s : State),
    (index < 65536) ∧ (sub < 256) ∧ (objOf s.gen (key index sub) = some o) :=
  ⟨0x3000, 6, ob (key 0x3000 6), live, by decide +kernel⟩

theorem test_wit_writeOrderRo : ∃ (index : Nat) (sub : Nat) (o : Obj) (s : State),
    (index < 65536) ∧ (sub < 256) ∧ (objOf s.gen (key index sub) = some o) :=
  ⟨0x3000, 3, ob (key 0x3000 3), live, by decide +kernel⟩

theorem test_wit_writeOrderLen : ∃ (index : Nat) (sub : Nat) (o : Obj) (s : State),
    (index < 65536) ∧ (sub < 256) ∧ (objOf s.gen (key index sub) = some o) :=
  ⟨0x3000, 6, ob (key 0x3000 6), live, by decide +kernel⟩

theorem test_wit_stopRequired : ∃ (index : Nat) (sub : Nat) (size : Nat) (value : Nat) (o : Obj) (w : Owner) (s : State),
    (index < 65536) ∧ (sub < 256) ∧ (objOf s.gen (key index sub) = some o) ∧ (o.acc = .rws) ∧ (size = o.ty.size) ∧ (valueOk s.gen s.m (key index sub) o value = true) ∧ (ownerOf s.gen (key index sub) = some w) ∧ (s.m.ownerStopped s.gen w = false) :=
  ⟨0x4210, 4, 2, 64, ob (key 0x4210 4), .func 0x3022, live, by decide +kernel⟩

theorem test_wit_stopRequiredTime : ∃ (index : Nat) (sub : Nat) (size : Nat) (value : Nat) (o : Obj) (w : Owner) (s : State),
    (index < 65536) ∧ (sub < 256) ∧ (objOf s.gen (key index sub) = some o) ∧ (o.acc = .rws) ∧ (size = o.ty.size) ∧ (valueOk s.gen s.m (key index sub) o value = true) ∧ (ownerOf s.gen (key index sub) = some w) ∧ (s.m.ownerStopped s.gen w = false) :=
  ⟨0x3000, 1, 1, 1, ob (key 0x3000 1), .func 0x6000, live fun m => { m with prk := { m.prk with st := .active } }, by decide +kernel⟩

theorem test_wit_registerWrite : ∃ (index : Nat) (sub : Nat) (value : Nat) (o : Obj) (s : State),
    (plainIndex index) ∧ (sub < 256) ∧ (objOf s.gen (key index sub) = some o) ∧ (o.acc = .rw) ∧ (valueOk s.gen s.m (key index sub) o value = true) ∧ (mustWait s.gen s.m (key index sub) = false) :=
  ⟨0x2000, 1, 3, ob (key 0x2000 1), live, ⟨by unfold plainIndex; decide +kernel, by decide +kernel, by decide +kernel, by decide +kernel, by decide +kernel, by decide +kernel⟩⟩

theorem test_wit_restoreRouter : ∃ (r : Nat) (s : State),
    (s.gen.hasRouter r = true) ∧ (r < 256) ∧ ((s.m.rt s.gen r).fs = .stopped) ∧ (s.m.sh.job = none) :=
  ⟨17, live fun m => (((m.setReg (key 0x9111 7) 3).setReg (key 0xA111 0x41) 5).updR 17 fun x => { x with fs := .stopped }), by decide +kernel⟩

theorem test_wit_restoreRefused : ∃ (r : Nat) (s : State),
    (s.gen.hasRouter r = true) ∧ (r < 256) ∧ ((s.m.rt s.gen r).fs ≠ .stopped) :=
  ⟨17, live, by decide +kernel⟩

theorem test_wit_storeFails : ∃ (s : State),
    (s.m.sh.job = none) ∧ (s.m.sh.host = none) :=
  ⟨live, by decide +kernel⟩

theorem test_wit_storeSends : ∃ (h : Nat) (s : State),
    (s.m.sh.job = none) ∧ (s.m.sh.host = some h) :=
  ⟨8, live fun m => (m.setReg (key 0x3000 6) 5000).updSh fun x => { x with host := some 8 }, by decide +kernel⟩

theorem test_wit_imageAck : ∃ (u : List Byte) (v : List Byte) (iana : BitVec 32) (result : Nat) (j : Job) (s : State),
    (imageAckOf (u ++ v) = some (iana, result)) ∧ (mctpFor s iana) ∧ (s.m.sh.job = some j) ∧ (j.sub = 3) :=
  ⟨vendorMsg 0 5 [], [1], 0, 1, ⟨3, 0, [], 0⟩, live (·.updSh fun x => { x with job := some (⟨3, 0, [], 0⟩) }), by decide +kernel⟩

theorem test_wit_storeTimeout : ∃ (j : Job) (d : Nat) (s : State),
    (s.m.sh.job = some j) ∧ (j.sub = 3) ∧ (s.m.deadline .store = some d) :=
  ⟨⟨3, 0, [], 0⟩, 327710000, (fun q : State => (⟨q.gen, due .store 327710000 q.m, q.pending⟩ : State)) (live (·.updSh fun x => { x with job := some (⟨3, 0, [], 0⟩) })), by decide +kernel⟩

theorem test_wit_imageWait : ∃ (d : Nat) (s : State),
    (inStep3 s.gen s.m = true) ∧ (s.m.sh.imageSeen = false) ∧ (s.m.deadline .image = some d) :=
  ⟨327710000, (fun q : State => (⟨q.gen, due .image 327710000 q.m, q.pending⟩ : State)) (live fun m => (m.setReg (key 0x1200 1) 3).updSh fun x => { x with image := [] }), by decide +kernel⟩

theorem test_wit_imageChunk : ∃ (u : List Byte) (v : List Byte) (w : List Byte) (iana : BitVec 32) (a : Nat) (bs : List Byte) (s : State),
    (chunkOf (u ++ v ++ w) = some (iana, a, bs)) ∧ (inStep3 s.gen s.m = true) ∧ (mctpFor s iana) ∧ (1 ≤ bs.length) ∧ (bs.length ≤ 256) :=
  ⟨vendorMsg 0 3 [], toBytes 5 4, toBytes 3 2 ++ [1, 0, 3], 0, 5, [1, 0, 3], live fun m => (m.setReg (key 0x1200 1) 3).updSh fun x => { x with image := [(4, 9), (6, 8), (9, 1)] }, by decide +kernel⟩

theorem test_wit_imageCrc : ∃ (u : List Byte) (v : List Byte) (iana : BitVec 32) (n : Nat) (s : State),
    (imageEndOf (u ++ v) = some (iana, n)) ∧ (inStep3 s.gen s.m = true) ∧ (mctpFor s iana) ∧ (36 ≤ n) ∧ (crc32c ((imageOf s n).take (n - 4)) ≠ ofBytes ((imageOf s n).drop (n - 4))) :=
  ⟨vendorMsg 0 4 [], toBytes 36 4, 0, 36, live fun m => (m.setReg (key 0x1200 1) 3).updSh fun x => { x with image := [] }, ⟨by decide +kernel, by decide +kernel, by decide +kernel, by decide +kernel, by decide +kernel⟩⟩

theorem test_wit_imageEnd : ∃ (u : List Byte) (v : List Byte) (iana : BitVec 32) (n : Nat) (s : State),
    (imageEndOf (u ++ v) = some (iana, n)) ∧ (inStep3 s.gen s.m = true) ∧ (mctpFor s iana) ∧ (36 ≤ n) ∧ (let bs := imageOf s n; let word (a : Nat) : Nat := ofBytes ((bs.drop a).take 4); (crc32c (bs.take (n - 4)) = ofBytes (bs.drop (n - 4))) ∧ (word 8 = n) ∧ (word 0 / 256 = 0x000302) ∧ (word 4 = genDigest s.gen)) :=
  ⟨vendorMsg 0 4 [], toBytes 36 4, 0, 36, imageState, ⟨by decide +kernel, by decide +kernel, by decide +kernel, by decide +kernel, by
  rw [imageOf_image0]; exact ⟨by decide +kernel, by decide +kernel, by decide +kernel, by rw [show imageState.gen = g0 from rfl, digest_g0]; decide +kernel⟩⟩⟩

theorem test_wit_imageRecord : objOf g0 (key 0xFFFF 0) = none ∧ (∃ o, objOf g0 (key 0x1100 1) = some o ∧ persistent (key 0x1100 1) o = false) ∧
∃ o, objOf g0 (key 0x3000 6) = some o ∧ persistent (key 0x3000 6) o = true ∧ (3 ≠ o.ty.size ∨ valueOk g0 (liveOf g0) (key 0x3000 6) o 5 = false) :=
⟨by decide +kernel, ⟨_, rfl, by decide +kernel⟩, _, rfl, by decide +kernel, by decide +kernel⟩

theorem test_wit_stopRouter : ∃ (r : Nat) (s : State),
    (s.gen.hasRouter r = true) ∧ (r < 256) ∧ (s.m.routers.has r = true) ∧ ((s.m.rt s.gen r).fs = .running) ∧ ((s.m.dom (s.gen.region r)).st = .p0) ∧ (s.m.sh.job = none) :=
  ⟨17, live, by decide +kernel⟩

theorem test_wit_stopNi : ∃ (l : Nat) (s : State),
    (s.gen.hasNi l = true) ∧ (l < 128) ∧ (s.m.nis.has l = true) ∧ ((s.m.ni l).fs = .running) ∧ ((s.m.dom (s.gen.niDom l)).st = .p0) ∧ (s.m.sh.job = none) ∧ ((∀ v, v < 5 → (s.m.ni l).ep.eject.getD v [] = [])) :=
  ⟨0x22, live, by decide +kernel⟩

theorem test_wit_stopNiWaiting : ∃ (l : Nat) (s : State),
    (s.gen.hasNi l = true) ∧ (l < 128) ∧ (s.m.nis.has l = true) ∧ ((s.m.ni l).fs = .running) ∧ ((s.m.dom (s.gen.niDom l)).st = .p0) ∧ (s.m.sh.job = none) :=
  ⟨0x22, live (·.updEp 0x22 fun e => { e with eject := [(0, [⟨pk (hh 0x22 0 1 0), false, none, true⟩, ⟨pk (hh 0x22 0 1 0), true, none, true⟩]), (2, [⟨pk (hh 0x22 2 1 0x90), false, none, true⟩])] }), by decide +kernel⟩

theorem test_wit_stopPort : ∃ (p : Nat) (s : State),
    (s.gen.hasPort p = true) ∧ (p < 8) ∧ (s.m.ports.has p = true) ∧ ((s.m.port p).fs = .running) ∧ ((s.m.port p).pwr = 0) ∧ (s.m.sh.job = none) :=
  ⟨0, live, by decide +kernel⟩

theorem test_wit_startNi : ∃ (l : Nat) (s : State),
    (s.gen.hasNi l = true) ∧ (l < 128) ∧ (s.m.nis.has l = true) ∧ ((s.m.ni l).fs = .stopped) ∧ ((s.m.ni l).rx.dead = false) ∧ ((s.m.dom (s.gen.niDom l)).st = .p0) ∧ (s.m.sh.job = none) :=
  ⟨0x22, live fun m => { m.updN 0x22 (fun n => { n with fs := .stopped }) with inForce := [(niKey 0x22 0x10, 500)] }, by decide +kernel⟩

theorem test_wit_startStopping : ∃ (r : Nat) (s : State),
    (s.gen.hasRouter r = true) ∧ (r < 256) ∧ (s.m.routers.has r = true) ∧ ((s.m.rt s.gen r).fs = .stopping) ∧ ((s.m.dom (s.gen.region r)).st = .p0) ∧ (s.m.sh.job = none) :=
  ⟨17, live fun m => m.updR 17 fun x => { x with fs := .stopping }, by decide +kernel⟩

theorem test_wit_startRefused : ∃ (code : Nat) (entry : Nat) (s : State),
    (s.m.sh.job = none) ∧ (startRefusal s.gen s.m 0x2000 = some (code, entry)) :=
  ⟨1, 9, live fun m => ({ m with routers := m.routers.map fun (r, x) => (r, { x with fs := .stopped }) } : Mach).setReg (key 0x2100 9) 0xB000, by decide +kernel⟩

theorem test_wit_routerStopped : ∃ (r : Nat) (s : State),
    (s.gen.hasRouter r = true) ∧ (r < 256) ∧ (s.m.routers.has r = true) ∧ ((s.m.rt s.gen r).fs = .stopping) ∧ (routerEmpty s.gen s.m r = true) ∧ ((s.m.dom (s.gen.region r)).st = .p0) ∧ (s.m.sh.job = some (oneUnit 1 (0x1000 + r))) :=
  ⟨17, live fun m => (m.updR 17 fun x => { x with fs := .stopping }).updSh fun x => { x with job := some (oneUnit 1 0x1011) }, by decide +kernel⟩

theorem test_wit_drainTimeout : ∃ (r : Nat) (d : Nat) (s : State),
    (s.gen.hasRouter r = true) ∧ (r < 256) ∧ ((s.m.rt s.gen r).fs = .stopping) ∧ ((s.m.dom (s.gen.region r)).st = .p0) ∧ (s.m.deadline (.drain (0x1000 + r)) = some d) ∧ (s.m.sh.job = some (oneUnit 1 (0x1000 + r))) :=
  ⟨17, 327710000, (fun q : State => (⟨q.gen, due (.drain 0x1011) 327710000 q.m, q.pending⟩ : State)) (live fun m => (m.updR 17 fun x => { x with fs := .stopping }).updSh fun x => { x with job := some (oneUnit 1 0x1011) }), by decide +kernel⟩

theorem test_wit_routerRunning : ∃ (r : Nat) (s : State),
    (s.gen.hasRouter r = true) ∧ (s.m.routers.has r = true) ∧ ((s.m.rt s.gen r).fs = .starting) ∧ (s.m.sh.job = none) :=
  ⟨17, live fun m => m.updR 17 fun x => { x with fs := .starting, allocFault := true, cyclic := true }, by decide +kernel⟩

theorem test_wit_routerRunningBad : ∃ (r : Nat) (s : State),
    (s.gen.hasRouter r = true) ∧ (s.m.routers.has r = true) ∧ ((s.m.rt s.gen r).fs = .starting) ∧ (s.m.sh.job = none) :=
  ⟨17, live fun m => m.updR 17 fun x => { x with fs := .starting, allocFault := true, cyclic := true }, by decide +kernel⟩

theorem test_wit_niStopped : ∃ (l : Nat) (s : State),
    (s.gen.hasNi l = true) ∧ (l < 128) ∧ (s.m.nis.has l = true) ∧ ((s.m.ni l).fs = .stopping) ∧ (niEmpty (s.m.ni l) = true) ∧ ((s.m.dom (s.gen.niDom l)).st = .p0) ∧ (s.m.sh.job = some (oneUnit 1 (0x3000 + l))) :=
  ⟨0x22, live fun m => (m.updN 0x22 fun x => { x with fs := .stopping }).updSh fun x => { x with job := some (oneUnit 1 0x3022) }, by decide +kernel⟩

theorem test_wit_niDrainTimeout : ∃ (l : Nat) (d : Nat) (s : State),
    (s.gen.hasNi l = true) ∧ (l < 128) ∧ ((s.m.ni l).fs = .stopping) ∧ ((s.m.dom (s.gen.niDom l)).st = .p0) ∧ (s.m.deadline (.drain (0x3000 + l)) = some d) ∧ (s.m.sh.job = some (oneUnit 1 (0x3000 + l))) :=
  ⟨0x22, 327710000, (fun q : State => (⟨q.gen, due (.drain 0x3022) 327710000 q.m, q.pending⟩ : State)) (live fun m => (m.updN 0x22 fun x => { x with fs := .stopping }).updSh fun x => { x with job := some (oneUnit 1 0x3022) }), by decide +kernel⟩

theorem test_wit_niRunning : ∃ (l : Nat) (s : State),
    (s.gen.hasNi l = true) ∧ (s.m.nis.has l = true) ∧ ((s.m.ni l).fs = .starting) ∧ ((s.m.ni l).ep.st = .opened) ∧ (s.m.sh.isolated = false) ∧ (s.m.sh.job = none) :=
  ⟨0x22, live fun m => (m.updN 0x22 fun x => { x with fs := .starting, ep := { x.ep with inCr := [(0, 3), (2, 12), (7, 1)] } }), by decide +kernel⟩

theorem test_wit_portStopped : ∃ (p : Nat) (s : State),
    (s.gen.hasPort p = true) ∧ (p < 8) ∧ (s.m.ports.has p = true) ∧ ((s.m.port p).fs = .stopping) ∧ (portEmpty s.m p = true) ∧ (s.m.sh.job = some (oneUnit 1 (0x5000 + p))) :=
  ⟨0, live fun m => (m.updP 0 fun x => { x with fs := .stopping }).updSh fun x => { x with job := some (oneUnit 1 0x5000) }, by decide +kernel⟩

theorem test_wit_arm : ∃ (a : Nat) (late : Bool) (s : State),
    (noNeighbour s) ∧ (armRefusal (armView s.gen s.m) = none) ∧ (checkDigest (armView s.gen s.m) = none) ∧ (activationSlot s.gen s.m (s.m.reg s.gen (key 0x3100 2)) = some (a, late)) :=
  ⟨510016, true, live bank { g0 with ports := [] }, by decide +kernel⟩

theorem test_wit_armAt : ∃ (a : Nat) (late : Bool) (s : State),
    (noNeighbour s) ∧ (armRefusal (armView s.gen s.m) = none) ∧ (checkDigest (armView s.gen s.m) = none) ∧ (activationSlot s.gen s.m (s.m.reg s.gen (key 0x3100 2)) = some (a, late)) :=
  ⟨600064, false, live (fun m => { (bank m).setReg (key 0x3100 4) (600000 * 32768) with prk := { m.prk with st := .active, period := 512 } }) { g0 with ports := [] }, by decide +kernel⟩

theorem test_wit_armAsks : ∃ (s : State),
    ((∃ q ∈ s.gen.ports, (s.m.port q.p).link = .up)) ∧ (armRefusal (armView s.gen s.m) = none) :=
  ⟨live bank, ⟨⟨⟨0, 0, [0, 1, 16, 17, 18, 19], 3⟩, by decide +kernel, by decide +kernel⟩, by decide +kernel⟩⟩

theorem test_wit_armSound : ∃ (v : ArmView),
    (armRefusal v = none) :=
  ⟨armView g0 (bank (liveOf g0)), by decide +kernel⟩

theorem test_wit_activationSlot : ∃ (g : Gen) (m : Mach) (p : Nat) (a : Nat) (late : Bool),
    (1 ≤ p) ∧ (activationSlot g m p = some (a, late)) :=
  ⟨g0, liveOf g0, 1024, 510976, true, by decide +kernel⟩

theorem test_wit_activationLead : ∃ (g : Gen) (m : Mach) (p : Nat) (a : Nat) (late : Bool),
    (1 ≤ p) ∧ (activationSlot g m p = some (a, late)) :=
  ⟨g0, liveOf g0, 1024, 510976, true, by decide +kernel⟩

theorem test_wit_armRefused : ∃ (w : Nat) (s : State),
    (armRefusal (armView s.gen s.m) = some w) :=
  ⟨0x0E000000, live fun m => { m with prk := { m.prk with st := .armed } }, by decide +kernel⟩

theorem test_wit_armRefusedTime : ∃ (w : Nat) (s : State),
    (armRefusal (armView s.gen s.m) = some w) :=
  ⟨0x0B000000, live (·.updT fun t => { t with st := .acquiring }), by decide +kernel⟩

theorem test_wit_firstChecks : (∃ v : ArmView, v.m.prk.st = .armed) ∧ ∃ v : ArmView, v.m.prk.st = .idle ∧ v.m.time.st ≠ .locked :=
⟨⟨armView g0 { liveOf g0 with prk := { (liveOf g0).prk with st := .armed } }, rfl⟩, armView g0 (Mach.resetOf g0), by decide +kernel⟩

theorem test_wit_disarm : ∃ (s : State),
    (s.m.sh.job = none) :=
  ⟨live fun m => { m with prk := { m.prk with st := .armed, slot := 10001, armed := shadowBank (bank m), armedPeriod := 64, stopping := true } }, by decide +kernel⟩

theorem test_wit_disarmActive : ∃ (s : State),
    (s.m.sh.job = none) :=
  ⟨live fun m => { m with prk := { m.prk with st := .activeArmed, slot := 10001, armed := shadowBank (bank m), armedPeriod := 64 } }, by decide +kernel⟩

theorem test_wit_disarmLate : ∃ (s : State),
    (s.m.sh.job = none) :=
  ⟨live fun m => { m with prk := { m.prk with st := .activeArmed, slot := 10000, armed := shadowBank (bank m), armedPeriod := 64 } }, by decide +kernel⟩

theorem test_wit_activation : ∃ (s : State),
    (plainGen s.gen) ∧ (s.m.sh.job = none) ∧ ((s.m.prk.st = .armed ∨ s.m.prk.st = .activeArmed)) ∧ (bankSound s.m) :=
  ⟨live fun m => { m with regs := m.regs.put (key 0x3800 5) 7, prk := { m.prk with st := .armed, slot := 10000, armed := [(key 0x3405 0, 2 ^ 127), (key 0x3800 0, 7)], armedPeriod := 9 } }, by decide +kernel⟩

theorem test_wit_activationEmpty : ∃ (s : State),
    (plainGen s.gen) ∧ (s.m.sh.job = none) ∧ ((s.m.prk.st = .armed ∨ s.m.prk.st = .activeArmed)) ∧ (bankSound s.m) :=
  ⟨live fun m => { m with regs := m.regs.put (key 0x3800 5) 7, prk := { m.prk with st := .activeArmed, slot := 10000, active := [(key 0x3800 1, 2 ^ 31)], period := 9, armed := [], armedPeriod := 9 } }, by decide +kernel⟩

theorem test_wit_noActivation : ∃ (s : State),
    ((s.m.prk.st = .idle ∨ s.m.prk.st = .active)) :=
  ⟨live, by decide +kernel⟩

theorem test_wit_prkDigest : ∃ (p : Nat) (s : State),
    (s.gen.hasPort p = true) ∧ (s.m.ports.has p = true) :=
  ⟨0, live bank, by decide +kernel⟩

theorem test_wit_prkDigestAnswer : ∃ (p : Nat) (s : State),
    (s.gen.hasPort p = true) ∧ (s.m.ports.has p = true) :=
  ⟨0, live (·.updP 0 fun x => { x with asked := true }), by decide +kernel⟩

theorem test_wit_lastDigest : ∃ (p : Nat) (d : BitVec 32) (s : State),
    (s.gen.hasPort p = true) ∧ (s.m.ports.has p = true) ∧ (s.m.prk.asking = true) ∧ ((s.m.port p).asked = true) ∧ ((∀ q ∈ s.gen.ports, q.p ≠ p → (s.m.port q.p).link = .up → (s.m.port q.p).asked = false)) ∧ (let u := s.m.updP p fun x => { x with digest := some d, asked := false }; (armRefusal (armView s.gen u) = none)) :=
  ⟨0, 0, live fun m => { bank (m.updP 0 fun x => { x with asked := true }) with prk := { m.prk with asking := true } }, ⟨by decide +kernel, by decide +kernel, by decide +kernel, by decide +kernel, by decide +kernel, by decide +kernel⟩⟩

theorem test_wit_lastDigestDiffers : ∃ (p : Nat) (d : BitVec 32) (s : State),
    (s.gen.hasPort p = true) ∧ (s.m.ports.has p = true) ∧ (s.m.prk.asking = true) ∧ ((s.m.port p).asked = true) ∧ ((∀ q ∈ s.gen.ports, q.p ≠ p → (s.m.port q.p).link = .up → (s.m.port q.p).asked = false)) ∧ (let u := s.m.updP p fun x => { x with digest := some d, asked := false }; (armRefusal (armView s.gen u) = none)) :=
  ⟨0, 7, live fun m => { bank (m.updP 0 fun x => { x with asked := true }) with prk := { m.prk with asking := true } }, ⟨by decide +kernel, by decide +kernel, by decide +kernel, by decide +kernel, by decide +kernel, by decide +kernel⟩⟩

theorem test_wit_logClear : ∃ (idx : Nat) (s : State),
    (plainGen s.gen) ∧ (hasLog s.gen idx = true) ∧ (s.m.sh.isolated = false) :=
  ⟨0x9111, live fun m => { ((m.setReg (key 0x9111 1) 7).setReg (key 0x9111 6) 9).setReg (key 0x9800 7) (2 ^ 17 + 1) with logs := [(0x9111, ⟨none, [0, 1, 0, 0], [0, 1, 0, 0], ⟨m.aoCycle, (0, 0), [2 ^ 126 + 5], [0, 1, 0, 0]⟩⟩)] }, by decide +kernel⟩

theorem test_wit_logEmpty : plainGen (live).gen ∧ hasLog (live).gen 0x9111 = true ∧ (live).m.sh.isolated = false ∧ ((live).m.log 0x9111).now.cycle ≠ (live).m.aoCycle ∧
∃ s : State, plainGen s.gen ∧ hasLog s.gen 0x9111 = true ∧ s.m.sh.isolated = true :=
⟨by decide +kernel, by decide +kernel, by decide +kernel, by decide +kernel, live (·.updSh fun x => { x with isolated := true }), by decide +kernel⟩

theorem test_wit_logArrival : ∃ (idx : Nat) (w : Nat) (sev : Nat) (k : Nat) (b : Nat) (l : LogSt) (s : State),
    (s.m.sh.isolated = false) ∧ (s.m.logs.get? idx = some l) ∧ (l.waiting = some w) ∧ (pendBit idx = some (k, b)) ∧ (l.applied.length = 4) ∧ (sev < 4) ∧ (l.counts = l.applied.set sev (l.applied.getD sev 0 + 1)) ∧ (l.now.cycle ≠ s.m.aoCycle) ∧ ((∀ d, logDomain s.gen idx = some d → d < 128)) ∧ (s.m.reg s.gen (key idx 1) = 0) ∧ (s.m.reg s.gen (key idx 7) % 4 ≤ w / 2 ^ 126) :=
  ⟨0x9222, logRecord 0x12 0 5 6 7, 2, key 0x9800 8, 0x22, ⟨some (logRecord 0x12 0 5 6 7), [0, 3, 5, 0], [0, 3, 4, 0], ⟨5, (0, 0), [], [0, 0, 0, 0]⟩⟩, live fun m => { (m.setReg (key 0x9222 5) 0xFFFFFFFF) with logs := [(0x9222, (⟨some (logRecord 0x12 0 5 6 7), [0, 3, 5, 0], [0, 3, 4, 0], ⟨5, (0, 0), [], [0, 0, 0, 0]⟩⟩))] }, by decide +kernel⟩

theorem test_wit_clockOff : ∃ (d : Nat) (f : Nat) (s : State),
    (s.gen.hasDom d = true) ∧ ((2 * s.m.cfg s.gen (domKey d 2) < 100 * (s.m.cfg s.gen (domKey d 2) - f) ∨ 2 * s.m.cfg s.gen (domKey d 2) < 100 * (f - s.m.cfg s.gen (domKey d 2)))) :=
  ⟨1, 1959, live, by decide +kernel⟩

theorem test_wit_clockOffFast : ∃ (d : Nat) (f : Nat) (s : State),
    (s.gen.hasDom d = true) ∧ ((2 * s.m.cfg s.gen (domKey d 2) < 100 * (s.m.cfg s.gen (domKey d 2) - f) ∨ 2 * s.m.cfg s.gen (domKey d 2) < 100 * (f - s.m.cfg s.gen (domKey d 2)))) :=
  ⟨1, 2041, live, by decide +kernel⟩

theorem test_wit_ageMeasure : ∃ (d : Nat) (v : Nat) (s : State),
    (s.gen.hasDom d = true) ∧ (1 ≤ d) ∧ (d < 128) ∧ (v < 65536) ∧ ((s.m.dom d).st = .p0) :=
  ⟨3, 700, live, by decide +kernel⟩

theorem test_wit_ageMeasureBelow : ∃ (d : Nat) (v : Nat) (s : State),
    (s.gen.hasDom d = true) ∧ (1 ≤ d) ∧ (d < 128) ∧ (v < 65536) ∧ ((s.m.dom d).st = .p0) :=
  ⟨1, 699, live fun m => m.setReg (key 0xA800 1) 65536, by decide +kernel⟩

theorem test_wit_porRelease : ∃ (s : State),
    (s.m.sh.porN = false) :=
  ⟨cold, by decide +kernel⟩

theorem test_wit_startup1 : ∃ (s : State),
    (atStep s 1) :=
  ⟨cold fun m => (m.updSh fun x => { x with porN := true, t0 := 5 }).setReg startupKey 1, by decide +kernel⟩

theorem test_wit_startup2 : ∃ (s : State),
    (atStep s 2) :=
  ⟨cold fun m => (m.updSh fun x => { x with porN := true, t0 := 5 }).setReg startupKey 2, by decide +kernel⟩

theorem test_wit_startup6 : ∃ (s : State),
    (atStep s 6) :=
  ⟨cold fun m => (m.updSh fun x => { x with porN := true, t0 := 5 }).setReg startupKey 6, by decide +kernel⟩

theorem test_wit_startup6Assigned : ∃ (s : State),
    (atStep s 6) :=
  ⟨live fun m => m.setReg startupKey 6, by decide +kernel⟩

theorem test_wit_startup7 : ∃ (code : Nat) (entry : Nat) (s : State),
    (atStep s 7) ∧ (routingRefusal s.gen s.m = some (code, entry)) :=
  ⟨1, 511, live fun m => (m.setReg startupKey 7).setReg (key 0x2101 255) 0x8800, by decide +kernel⟩

theorem test_wit_startup9 : ∃ (s : State),
    (atStep s 9) :=
  ⟨live fun m => (m.setReg startupKey 9).updSh fun x => { x with t0 := 5 }, by decide +kernel⟩

theorem test_wit_wsExtest : ∃ (s : State),
    (s.m.sh.wrapper < 2) :=
  ⟨live (·.updSh fun x => { x with wrapper := 1 }), by decide +kernel⟩

theorem test_wit_wsIntest : ∃ (s : State),
    (s.m.sh.wrapper < 2) ∧ (testable s.gen s.m = true) :=
  ⟨cold, by decide +kernel⟩

theorem test_wit_hyMbist : ∃ (s : State),
    (s.m.sh.wrapper < 2) ∧ (testable s.gen s.m = true) :=
  ⟨cold fun m => m.updSh fun x => { x with porN := true }, by decide +kernel⟩

theorem test_wit_hyFabricBist : ∃ (s : State),
    (s.m.sh.wrapper < 2) ∧ (testable s.gen s.m = true) :=
  ⟨cold, by decide +kernel⟩

theorem test_wit_hyMemRead : ∃ (mem : Nat) (addr : Nat) (v : Nat) (s : State),
    (s.m.sh.wrapper < 2) ∧ (testable s.gen s.m = true) ∧ (protectedMem s.gen s.m mem addr = some v) :=
  ⟨0x3022, 256, 5, cold fun m => m.updN 0x22 fun n => { n with guard := { n.guard with setB := [(0, 5)] } }, by decide +kernel⟩

theorem test_wit_hyMemReadOpen : ∃ (mem : Nat) (addr : Nat) (v : Nat) (s : State),
    (s.m.sh.wrapper < 2) ∧ (testable s.gen s.m = true) ∧ (protectedMem s.gen s.m mem addr = some v) :=
  ⟨0x4001, 0x7FFF, 0xAB, cold fun m => (m.updSh fun x => { x with lifecycle := 0xA }).updE 1 fun e => { e with scratch := [(0x7FFF, 0xAB)] }, by decide +kernel⟩

theorem test_wit_testRefused : ∃ (s : State),
    (testable s.gen s.m = false) :=
  ⟨live, by decide +kernel⟩

theorem test_wit_stepFront : ∃ (i : Instr) (rest : List Instr) (s : State),
    (s.pending = i :: rest) :=
  ⟨.porAssert, [.porRelease], { live with pending := [.porAssert, .porRelease] }, by decide +kernel⟩

theorem test_wit_idle : ∃ (s : State),
    (s.pending = []) :=
  ⟨live, by decide +kernel⟩

/-! ### Witnesses by hand -/

theorem test_wit_queueKept : ∃ (i : Instr) (s t : State), exec i s = .next t := ⟨.porRelease, cold, _, rfl⟩

theorem test_wit_flitFits : ∃ f : Flit, Flit.fits f := ⟨⟨0, 15, 3, false, true, false, 15, 255, 7⟩, by decide⟩

theorem test_wit_flitGroups : ∃ i j, i < 576 ∧ j < 576 ∧ i ≠ j ∧ wireGroup i = wireGroup j := ⟨575, 539, by decide⟩

theorem test_wit_memForm : ∃ s t : State, s.memWf ∧ step s = .next t := by
  refine ⟨cold, cold, fun i e h => ?_, rfl⟩
  have : (i, e) ∈ [(0, Engine.reset), (1, Engine.reset)] := h
  simp only [List.mem_cons, List.not_mem_nil, Prod.mk.injEq, or_false] at this
  obtain ⟨-, rfl⟩ | ⟨-, rfl⟩ := this <;> decide

/-! ### Values the manual itself gives -/

/-- The ASCII string 123456789. -/
def digits : List Byte := [0x31, 0x32, 0x33, 0x34, 0x35, 0x36, 0x37, 0x38, 0x39]

/-- Check value of the end-to-end CRC, R86's text. -/
theorem test_crc32c_check : crc32c digits = 0xE3069283 := by decide +kernel

/-- Check value of the frame CRC, R376. -/
theorem test_crc16_check : crc16Bits 0xFFFF 0x313233343536373839 72 = 0x29B1 := by decide +kernel

/-- The boundary-crossing write of the manual's example: 200 B at 0x0040_2000_01C0. -/
def exampleWrite : Pkt :=
  { hdr := { hh 0x21 0 2 0x20 with dest := 0x0821, src := 0x0185, addr := 0x0040200001C0, len := 200 }
    data := [1, 2, 3, 4], badHdr := false, badData := [] }

/-- Its two parts: LEN 64 and 136, the second at 0x0040_2000_0200, 2 and 4 flits. -/
theorem test_split_example :
    (splitParts exampleWrite).map (fun p => (p.hdr.a, p.hdr.n, p.flits)) = [(0x0040200001C0, 64, 2), (0x004020000200, 136, 4)] := by
  decide +kernel

/-- Fabric IDs of the same example: node 3 local 0x05, node 16 local 0x21. -/
theorem test_fabric_ids : mkFid 3 0x05 = 0x0185 ∧ mkFid 16 0x21 = 0x0821 := by decide

/-! ### Well-formedness -/

/-- A packet row with another row's CMD is ill formed, and exec refuses it. -/
theorem test_wf_wrong_cmd : Instr.wf (.wrNp 0x21 (pk (hh 0x21 0 1 0x21))) = false ∧ Instr.wf (.wrNp 0x21 (pk (hh 0x21 0 1 0x20))) = true := by
  decide +kernel

theorem test_refused_wrong_cmd : exec (.wrNp 0x21 (pk (hh 0x21 0 1 0x21))) live = .refused .illFormed := rfl

/-- A frame of nine flits is ill formed. -/
theorem test_wf_long_frame : Instr.wf (.frameReceive 0 (.channel (frm (List.replicate 9 0) 0))) = false ∧
    Instr.wf (.frameReceive 0 (.channel (frm (List.replicate 8 0) 0))) = true := by decide +kernel

/-- An event at an NI that was not generated changes nothing; a write to an object of one is answered OBJECT_ABSENT (R5). -/
theorem test_absent_unit : exec (.agentRdyRise 0x33) live = .next live ∧
    exec (.denyClear 0x33) live = .next { live with m := { live.m with out := [.status 1] } } := ⟨rfl, rfl⟩

end Sys2Proof.Tests
end

section
/-! PROOFS. Dictionary writes that are refused (R12): what a refusal leaves of the machine, and what a REGISTER_WRITE
answers. -/

namespace Sys2Proof.Machine

open Sys2Proof

/-! ### A write to an object -/

/-- A write to an object completes, or it leaves the machine as it was, also where the access had woken a domain or begun
the command before it was refused (R522). -/
theorem writeObj_cases (g : Gen) (m : Mach) (k size v : Nat) :
    (writeObj g m k size v).2 = mgOk ∨ (writeObj g m k size v).1 = m := by
  unfold writeObj
  cases objOf g k with
  | none => exact .inr rfl
  | some o =>
    dsimp only
    by_cases hacc : (o.acc = .ro || o.acc = .const) = true
    · exact .inr (by rw [if_pos hacc])
    by_cases hlen : size ≠ o.ty.size
    · exact .inr (by rw [if_neg hacc, if_pos hlen])
    by_cases hval : (!valueOk g m k o v) = true
    · exact .inr (by rw [if_neg hacc, if_neg hlen, if_pos hval])
    rw [if_neg hacc, if_neg hlen, if_neg hval]
    generalize (if o.acc = .wo then writeCommand g (wakeFor g m k) k v else writeData g (wakeFor g m k) k o v) = res
    by_cases hst : res.2 = mgOk
    · exact .inl (by rw [if_pos hst])
    · exact .inr (by rw [if_neg hst])

/-- A write that is refused, with whichever code, changes nothing (R12). -/
theorem writeObj_refused {g : Gen} {m : Mach} {k size v : Nat} (h : (writeObj g m k size v).2 ≠ mgOk) :
    (writeObj g m k size v).1 = m :=
  (writeObj_cases g m k size v).resolve_left h

/-! ### The REGISTER_WRITE command -/

/-- The machine and MG_STATUS of a REGISTER_WRITE before its answer leaves: an index or subindex out of range names no
object (R5). -/
def dictWrite (index sub size value : Nat) (g : Gen) (m : Mach) : Mach × Nat :=
  if index < 65536 && sub < 256 then writeObj g m (key index sub) size value else (m, mgAbsent)

theorem exec_registerWrite (index sub size value : Nat) (s : State) :
    exec (.registerWrite index sub size value) s = s.run fun g m => withStatus (dictWrite index sub size value g m) := rfl

theorem dictWrite_refused {index sub size value : Nat} {g : Gen} {m : Mach} (h : (dictWrite index sub size value g m).2 ≠ mgOk) :
    (dictWrite index sub size value g m).1 = m := by
  unfold dictWrite at h ⊢
  by_cases hin : (decide (index < 65536) && decide (sub < 256)) = true
  · rw [if_pos hin] at h ⊢
    exact writeObj_refused h
  · rw [if_neg hin]

/-- The MG_STATUS is the last thing that leaves the block. -/
@[simp] theorem withStatus_getLast? (x : Mach × Nat) : (withStatus x).out.getLast? = some (.status x.2) :=
  List.getLast?_concat

/-- The status a REGISTER_WRITE is seen to answer is the one its write gave. -/
theorem status_of_registerWrite {index sub size value c : Nat} {s : State}
    (h : Yields (.registerWrite index sub size value) s fun m => m.out.getLast? = some (.status c)) :
    (dictWrite index sub size value s.gen s.m).2 = c := by
  obtain ⟨t, hexec, -, -, hlast⟩ := h
  obtain rfl := Host.Outcome.next.inj ((exec_registerWrite index sub size value s).symm.trans hexec)
  simpa using hlast

theorem refusedWriteRow_holds : refusedWriteRow := by
  rintro index sub size value s ⟨c, hc, hyields⟩
  have hstatus := status_of_registerWrite hyields
  have hkept : (dictWrite index sub size value s.gen s.m).1 = s.m := dictWrite_refused (hstatus ▸ hc)
  refine yields_of_run (exec_registerWrite index sub size value s) ⟨c, hc, ?_⟩
  rw [withStatus, hkept, hstatus, Mach.emit]

theorem refusedObjRow_holds : refusedObjRow := fun _ _ _ _ _ => writeObj_refused

/-- Settles O47: an object's write drops every change it began when its code is not 0, and REGISTER_WRITE adds only the
answer. -/
theorem refusedWrites : Obligations.RefusedWrites := ⟨refusedWriteRow_holds, refusedObjRow_holds⟩

end Sys2Proof.Machine
end

section
/-! PROOFS. CLOSE_TIMEOUT (R429): the domain that did not drain is in P0 again, and it is idle for a whole threshold before it is
tried anew. -/

namespace Sys2Proof.Machine

open Sys2Proof

/-! ### The row CLOSE_TIMEOUT -/

theorem exec_closeTimeout (d : Nat) (s : State) :
    exec (.closeTimeout d) s = s.runIf (s.gen.hasDom d) (closeTimeout d) := rfl

/-- The domain that gives up CLOSING is in P0, its idle time counts from now, and CLOSE_ABORT counts (R429). -/
def abortClosing (g : Gen) (d : Nat) (m : Mach) : Mach :=
  (m.updD d fun x => { x with st := .p0, hinted := false, woke := m.now }).addWrap g (domKey d 10) 1

/-- In CLOSING, with no supply asked for, the row is the end of the close timer. -/
theorem closeTimeout_of_closing {g : Gen} {m : Mach} {d : Nat} (hst : (m.dom d).st = .closing) (hreq : (m.dom d).req = 0) :
    closeTimeout d g m = m.onExpiry (.close d) (abortClosing g d) := by
  rw [closeTimeout]
  exact if_neg (by simp [hst, hreq])

theorem abortClosing_changes (g : Gen) (d : Nat) (m : Mach) : changesOnly [.domains, .regs] m (abortClosing g d m) :=
  ((updD_changes _ _ _).mono (by decide)).trans ((addWrap_changes _ _ _ _).mono (by decide))

theorem abortClosing_domBecomes (g : Gen) {d : Nat} {m : Mach} (h : m.domains.has d = true) :
    domBecomes d { m.dom d with st := .p0, hinted := false, woke := m.now } m (abortClosing g d m) :=
  ⟨Mach.dom_updD_self m d _ h, fun _ he => Mach.dom_updD_ne m _ he⟩

theorem reg_abortClosing (g : Gen) (d : Nat) (m : Mach) :
    (abortClosing g d m).reg g (domKey d 10) = wrapped g m (domKey d 10) 1 := reg_addWrap _ _ _ _

theorem abortClosing_sameRegs (g : Gen) (d : Nat) (m : Mach) : sameRegsBut [domKey d 10] m (abortClosing g d m) :=
  addWrap_sameRegs _ _ _ _

/-! What a timer's row finds when its effect begins: time has gone on to the deadline and the timer has stopped. -/

theorem atDeadline_changes (m : Mach) (t : Nat) (x : Timer) : changesOnly [.time, .timers] m ((m.advanceTo t).stopTimer x) :=
  ((advanceTo_changes _ _).mono (by decide)).trans ((stopTimers_changes _ _).mono (by decide))

theorem dom_atDeadline (m : Mach) (t : Nat) (x : Timer) (e : Nat) : ((m.advanceTo t).stopTimer x).dom e = m.dom e := by
  simp [Mach.dom]

theorem reg_atDeadline (m : Mach) (g : Gen) (t : Nat) (x : Timer) (k : Nat) :
    ((m.advanceTo t).stopTimer x).reg g k = m.reg g k := by
  simp [Mach.reg, dfltOf]

theorem closeTimeoutRow_holds : closeTimeoutRow := by
  rintro d t s ⟨hgen, hdom⟩ hst hreq hdl
  refine yields_of_runIf (exec_closeTimeout d s) hgen ?_
  rw [closeTimeout_of_closing hst hreq, Mach.onExpiry_some hdl]
  obtain ⟨hself, hothers⟩ := abortClosing_domBecomes s.gen (m := (s.m.advanceTo t).stopTimer (.close d)) (by simpa using hdom)
  refine ⟨?frame, rfl, ⟨?self, ?others⟩, ?count, ?regs⟩
  case frame =>
    exact ((atDeadline_changes _ _ _).mono (by decide)).trans ((abortClosing_changes _ _ _).mono (by decide))
  case self =>
    rw [hself, dom_atDeadline]
    rfl
  case others => exact fun e he => (hothers e he).trans (dom_atDeadline _ _ _ e)
  case count => rw [reg_abortClosing, wrapped, wrapped, reg_atDeadline]
  case regs => exact fun k hk => (abortClosing_sameRegs _ _ _ k hk).trans (by simp)

/-! ### The next try -/

/-- The latest of a start and a list's times is no earlier than the start. -/
theorem le_foldl_max {α : Type} (f : α → Nat) (l : List α) (t : Nat) : t ≤ l.foldl (fun t x => max t (f x)) t :=
  List.foldlRecOn l _ (Nat.le_refl t) fun _ h _ _ => Nat.le_trans h (Nat.le_max_left _ _)

/-- The idle time of a domain does not reach back beyond its last waking or CLOSE_ABORT (R425, R429). -/
theorem woke_le_idleSince (g : Gen) (m : Mach) (d : Nat) : (m.dom d).woke ≤ idleSince g m d :=
  Nat.le_trans (le_foldl_max _ _ _) (le_foldl_max _ _ _)

/-- A state is tried only when its idle threshold has been reached (R420). -/
theorem idleAt_le_of_deepest {g : Gen} {m : Mach} {d cur k : Nat} (h : deepest g m d cur = some k) : idleAt g m d k ≤ m.now := by
  have hk := List.find?_some h
  simp only [Bool.and_eq_true, decide_eq_true_eq] at hk
  obtain ⟨⟨-, hidle⟩, -⟩ := hk
  exact hidle

theorem afterAbortRow_holds : afterAbortRow := fun g m d _ k h =>
  calc (m.dom d).woke + idleLen g m (idleSince g m d) k
      ≤ idleAt g m d k := Nat.add_le_add_right (woke_le_idleSince g m d) _
    _ ≤ m.now := idleAt_le_of_deepest h

/-- Settles O42: the end of the close timer writes the domain and CLOSE_ABORT only, and the idle count that a new try waits for
starts no earlier than the abort. -/
theorem closeAbort : Obligations.CloseAbort := ⟨closeTimeoutRow_holds, afterAbortRow_holds⟩

end Sys2Proof.Machine
end

section
/-! PROOFS. R528: the answer to Get Vendor Defined Message Support, and vendor messages that carry another vendor's IANA number. -/

namespace Sys2Proof.Machine

open Sys2Proof

/-! ### The IANA number of a message -/

/-- Little-endian bytes hold a number below the range of their length. -/
theorem ofBytes_lt (bs : List Byte) : ofBytes bs < 256 ^ bs.length := by
  induction bs with
  | nil => exact Nat.zero_lt_one
  | cons b bs ih =>
    have hb : b.toNat < 256 := b.isLt
    rw [ofBytes, List.length_cons, Nat.pow_succ]
    omega

/-- The IANA field has four bytes (R472), so the 32-bit word a parser keeps it in loses nothing. -/
theorem vendorBody_iana_lt {code : Nat} {b : List Byte} {x : Nat × List Byte} (h : vendorBody code b = some x) : x.1 < 2 ^ 32 := by
  unfold vendorBody at h
  split at h
  · obtain rfl := Option.some.inj h
    calc ofBytes ((b.drop 1).take 4).reverse
        < 256 ^ ((b.drop 1).take 4).reverse.length := ofBytes_lt _
      _ ≤ 256 ^ 4 := Nat.pow_le_pow_right (by decide) (Nat.le_trans (Nat.le_of_eq List.length_reverse) (List.length_take_le 4 _))
  · cases h

/-- Whatever the VCODE these bytes are read with, their IANA field is not VENDOR_IANA. -/
def foreignTo (g : Gen) (b : List Byte) : Prop := ∀ code x, vendorBody code b = some x → x.1 ≠ g.vendorIana

/-- A parser of vendor messages keeps the IANA field, so what it reads from a foreign message is not for this Shuttle. -/
theorem forUs_of_parsed {α : Type} {g : Gen} {b : List Byte} {code : Nat} {f : Nat × List Byte → Option α} {iana : α → BitVec 32}
    {a : α} (hforeign : foreignTo g b) (hparse : (vendorBody code b).bind f = some a)
    (hiana : ∀ x, f x = some a → iana a = BitVec.ofNat 32 x.1) (m : Mach) : forUs g m (iana a) = false := by
  obtain ⟨x, hbody, hf⟩ := Option.bind_eq_some_iff.1 hparse
  have hword : (iana a).toNat = x.1 := by
    rw [hiana x hf, BitVec.toNat_ofNat, Nat.mod_eq_of_lt (vendorBody_iana_lt hbody)]
  rw [forUs, hword, beq_eq_false_iff_ne.2 (hforeign code x hbody), Bool.and_false]

theorem forUs_of_mgReq {g : Gen} {b : List Byte} {q : MgReq} (hforeign : foreignTo g b) (h : MgReq.ofBytes b = some q) (m : Mach) :
    forUs g m q.iana = false := by
  refine forUs_of_parsed (iana := MgReq.iana) hforeign h (fun x hx => ?_) m
  obtain ⟨-, ⟨⟩⟩ := Option.ite_none_left_eq_some.1 hx
  rfl

theorem forUs_of_chunk {g : Gen} {b : List Byte} {c : BitVec 32 × Nat × List Byte} (hforeign : foreignTo g b) (h : chunkOf b = some c)
    (m : Mach) : forUs g m c.1 = false := by
  refine forUs_of_parsed (iana := Prod.fst) hforeign h (fun x hx => ?_) m
  obtain ⟨-, ⟨⟩⟩ := Option.ite_none_right_eq_some.1 hx
  rfl

theorem forUs_of_imageEnd {g : Gen} {b : List Byte} {e : BitVec 32 × Nat} (hforeign : foreignTo g b) (h : imageEndOf b = some e)
    (m : Mach) : forUs g m e.1 = false := by
  refine forUs_of_parsed (iana := Prod.fst) hforeign h (fun x hx => ?_) m
  obtain ⟨-, ⟨⟩⟩ := Option.ite_none_right_eq_some.1 hx
  rfl

theorem forUs_of_imageAck {g : Gen} {b : List Byte} {a : BitVec 32 × Nat} (hforeign : foreignTo g b) (h : imageAckOf b = some a)
    (m : Mach) : forUs g m a.1 = false := by
  refine forUs_of_parsed (iana := Prod.fst) hforeign h (fun x hx => ?_) m
  obtain ⟨-, ⟨⟩⟩ := Option.ite_none_right_eq_some.1 hx
  rfl

/-! ### What a message that is not for this Shuttle does -/

theorem mgReq_not_forUs {g : Gen} {m : Mach} {q : MgReq} (h : forUs g m q.iana = false) : mgReq q g m = m := by
  rw [mgReq, h]
  rfl

theorem imageChunk_not_forUs {g : Gen} {m : Mach} {iana : BitVec 32} (h : forUs g m iana = false) (offset : Nat) (bytes : List Byte) :
    imageChunk iana offset bytes g m = m := by
  rw [imageChunk, h, Bool.and_false, Bool.false_and]
  rfl

theorem imageEnd_not_forUs {g : Gen} {m : Mach} {iana : BitVec 32} (h : forUs g m iana = false) (total : Nat) :
    imageEnd iana total g m = m := by
  rw [imageEnd, h, Bool.and_false]
  rfl

theorem imageAck_not_forUs {g : Gen} {m : Mach} {iana : BitVec 32} (h : forUs g m iana = false) (result : Nat) :
    imageAck iana result g m = m := by
  rw [imageAck, h]
  rfl

/-! ### The rows: bytes that no parser takes have no effect, nor has a foreign message -/

theorem exec_mgReq_foreign {b : List Byte} {s : State} (h : foreignTo s.gen b) : exec (.mgReq b) s = .next s := by
  change execMgReq b s = .next s
  cases hparse : MgReq.ofBytes b with
  | none => simp only [execMgReq, State.run, hparse]
  | some q => simp only [execMgReq, State.run, hparse, mgReq_not_forUs (forUs_of_mgReq h hparse s.m)]

theorem exec_imageChunk_foreign {u v w : List Byte} {s : State} (h : foreignTo s.gen (u ++ v ++ w)) :
    exec (.imageChunk u v w) s = .next s := by
  change execImageChunk u v w s = .next s
  cases hparse : chunkOf (u ++ v ++ w) with
  | none => simp only [execImageChunk, State.run, hparse]
  | some c => simp only [execImageChunk, State.run, hparse, imageChunk_not_forUs (forUs_of_chunk h hparse s.m)]

theorem exec_imageEnd_foreign {u v : List Byte} {s : State} (h : foreignTo s.gen (u ++ v)) : exec (.imageEnd u v) s = .next s := by
  change execImageEnd u v s = .next s
  cases hparse : imageEndOf (u ++ v) with
  | none => simp only [execImageEnd, State.run, hparse]
  | some e => simp only [execImageEnd, State.run, hparse, imageEnd_not_forUs (forUs_of_imageEnd h hparse s.m)]

theorem exec_imageAck_foreign {u v : List Byte} {s : State} (h : foreignTo s.gen (u ++ v)) : exec (.imageAck u v) s = .next s := by
  change execImageAck u v s = .next s
  cases hparse : imageAckOf (u ++ v) with
  | none => simp only [execImageAck, State.run, hparse]
  | some a => simp only [execImageAck, State.run, hparse, imageAck_not_forUs (forUs_of_imageAck h hparse s.m)]

/-- A command whose meaning answers the state itself is discarded without answer. -/
theorem yields_unchanged {i : Instr} {s : State} (h : exec i s = .next s) : Yields i s fun m => m = s.m :=
  ⟨s, h, rfl, rfl, rfl⟩

theorem foreignVendorRow_holds : foreignVendorRow := by
  intro u v w s hforeign
  have hassoc : foreignTo s.gen (u ++ (v ++ w)) := List.append_assoc u v w ▸ hforeign
  refine List.forall_mem_cons.2 ⟨?req, List.forall_mem_cons.2 ⟨?chunk, List.forall_mem_cons.2 ⟨?last, List.forall_mem_singleton.2 ?ack⟩⟩⟩
  case req => exact yields_unchanged (exec_mgReq_foreign hforeign)
  case chunk => exact yields_unchanged (exec_imageChunk_foreign hforeign)
  case last => exact yields_unchanged (exec_imageEnd_foreign hassoc)
  case ack => exact yields_unchanged (exec_imageAck_foreign hassoc)

/-! ### Get Vendor Defined Message Support -/

/-- Object 0x1000.03 VENDOR_IANA is a constant of the generated description. -/
theorem objOf_vendorIana (g : Gen) : objOf g (key 0x1000 3) = some (.plain .u32 .const g.vendorIana) := rfl

theorem getVendor_of_mctpUp {g : Gen} {m : Mach} (h : mctpUp g m = true) : getVendor g m = m.emit (.mctpVendor g.vendorIana) :=
  if_pos h

theorem exec_getVendor (s : State) : exec .getVendorDefinedMessageSupport s = s.run getVendor := rfl

theorem vendorSupportRow_holds : vendorSupportRow := by
  intro s hup
  refine ⟨⟨_, objOf_vendorIana s.gen, rfl, rfl⟩, yields_of_run (exec_getVendor s) ?_⟩
  rw [getVendor_of_mctpUp hup]
  exact ⟨emit_changes _ _, rfl⟩

/-- Settles O46: the answer is the constant of object 0x1000.03, and every parser of vendor messages keeps the four bytes of the
IANA field, on which each row discards a foreign message. -/
theorem vendorMessages : Obligations.VendorMessages := ⟨vendorSupportRow_holds, foreignVendorRow_holds⟩

end Sys2Proof.Machine
end
